-- ==== Sys2Proof/Word.lean ====
section
/-!
DEFINITION. The two data types of the CORE, Byte and Word (rule R9 of 00_scope.md), and the names an instruction's
operand fields stand for: registers (R23), register pairs (R24) and branch conditions (R230).
-/

namespace Sys2Proof

/-- An 8-bit unsigned value (R9, R14). -/
abbrev Byte := BitVec 8

/-- A 16-bit unsigned value: PC, SP, pairs, addresses (R9, R14). -/
abbrev Word := BitVec 16

/-- The seven 8-bit general registers (R20). The operand M is not a register (R22) and has instruction forms of its own. -/
inductive Reg where
  | b | c | d | e | h | l | a
  deriving DecidableEq, Repr

/-- The 16-bit operands of the pair field in LXI, INX, DCX and DAD (R24). PUSH, POP, LDAX and STAX name fewer
(`Instr.wellFormed`); PSW has instruction forms of its own (R261, R263). -/
inductive RegPair where
  | bc | de | hl | sp
  deriving DecidableEq, Repr

/-- The eight branch conditions, in code order (R230). -/
inductive Cond where
  | nz | z | nc | c | po | pe | p | m
  deriving DecidableEq, Repr

end Sys2Proof
end

