-- ==== Sys2Proof/Machine/Bits.lean ====
section
/-!
DEFINITION. Bit-field helpers of the notation of R9 (00_scope.md): `hi(w)`, `lo(w)`, `{a, b}`, the low nibble, and the parity
function of R29 (10_state.md).
-/

namespace Sys2Proof

/-- `hi(w) = w[15:8]` (R9). -/
def hiByte (w : Word) : Byte := w.extractLsb' 8 8

/-- `lo(w) = w[7:0]` (R9). -/
def loByte (w : Word) : Byte := w.extractLsb' 0 8

/-- `{h, l} = h * 256 + l` (R9). -/
def joinBytes (h l : Byte) : Word := h ++ l

/-- `v[3:0]` as an integer (R150, R151, R172). -/
def lowNibble (v : Byte) : Nat := v.toNat % 16

/-- The integer value of a bit (R9): 1 is set, 0 is clear. -/
def bit (b : Bool) : Nat := if b then 1 else 0

/-- `Parity(v)`: 1 when the number of 1 bits of v is even (R29), by the exclusive-OR form of that rule. -/
def parity (v : Byte) : Bool :=
  !(v.getLsbD 7 ^^ v.getLsbD 6 ^^ v.getLsbD 5 ^^ v.getLsbD 4 ^^ v.getLsbD 3 ^^ v.getLsbD 2 ^^ v.getLsbD 1 ^^ v.getLsbD 0)

end Sys2Proof
end

