-- ==== Sys2Proof/Syntax.lean ====
section
/-!
DEFINITION. The instructions: one constructor per row of spec/opcode_table.json, the 72 instruction forms of the
244 implemented opcodes and the 12 unimplemented values (R98, R99 of 30_encoding.md). Operands are the decoded fields.
-/

namespace Sys2Proof

/-- An instruction form with its operands (R91, R92). -/
inductive Instr where
  -- data transfer, 40_data_transfer.md
  /-- MOV r1,r2 (R121). -/
  | movRR (dst src : Reg)
  /-- MOV r,M (R122). -/
  | movRM (dst : Reg)
  /-- MOV M,r (R123). -/
  | movMR (src : Reg)
  /-- MVI r,d8 (R124). -/
  | mviR (dst : Reg) (d8 : Byte)
  /-- MVI M,d8 (R125). -/
  | mviM (d8 : Byte)
  /-- LXI rp,d16 (R126). -/
  | lxi (rp : RegPair) (d16 : Word)
  /-- LDA a16 (R127). -/
  | lda (a16 : Word)
  /-- STA a16 (R128). -/
  | sta (a16 : Word)
  /-- LHLD a16 (R129). -/
  | lhld (a16 : Word)
  /-- SHLD a16 (R130). -/
  | shld (a16 : Word)
  /-- LDAX rp, BC or DE (R131). -/
  | ldax (rp : RegPair)
  /-- STAX rp, BC or DE (R132). -/
  | stax (rp : RegPair)
  /-- XCHG (R133). -/
  | xchg
  -- arithmetic, 41_arithmetic.md
  /-- ADD r (R153). -/
  | addR (src : Reg)
  /-- ADD M (R154). -/
  | addM
  /-- ADI d8 (R155). -/
  | adi (d8 : Byte)
  /-- ADC r (R156). -/
  | adcR (src : Reg)
  /-- ADC M (R157). -/
  | adcM
  /-- ACI d8 (R158). -/
  | aci (d8 : Byte)
  /-- SUB r (R159). -/
  | subR (src : Reg)
  /-- SUB M (R160). -/
  | subM
  /-- SUI d8 (R161). -/
  | sui (d8 : Byte)
  /-- SBB r (R162). -/
  | sbbR (src : Reg)
  /-- SBB M (R163). -/
  | sbbM
  /-- SBI d8 (R164). -/
  | sbi (d8 : Byte)
  /-- INR r (R165). -/
  | inrR (dst : Reg)
  /-- INR M (R166). -/
  | inrM
  /-- DCR r (R167). -/
  | dcrR (dst : Reg)
  /-- DCR M (R168). -/
  | dcrM
  /-- INX rp (R169). -/
  | inx (rp : RegPair)
  /-- DCX rp (R170). -/
  | dcx (rp : RegPair)
  /-- DAD rp (R171). -/
  | dad (rp : RegPair)
  /-- DAA (R172). -/
  | daa
  -- logical, compare, rotate, carry, 42_logical.md
  /-- ANA r (R191). -/
  | anaR (src : Reg)
  /-- ANA M (R192). -/
  | anaM
  /-- ANI d8 (R193). -/
  | ani (d8 : Byte)
  /-- XRA r (R194). -/
  | xraR (src : Reg)
  /-- XRA M (R195). -/
  | xraM
  /-- XRI d8 (R196). -/
  | xri (d8 : Byte)
  /-- ORA r (R197). -/
  | oraR (src : Reg)
  /-- ORA M (R198). -/
  | oraM
  /-- ORI d8 (R199). -/
  | ori (d8 : Byte)
  /-- CMP r (R200). -/
  | cmpR (src : Reg)
  /-- CMP M (R201). -/
  | cmpM
  /-- CPI d8 (R202). -/
  | cpi (d8 : Byte)
  /-- RLC (R203). -/
  | rlc
  /-- RRC (R204). -/
  | rrc
  /-- RAL (R205). -/
  | ral
  /-- RAR (R206). -/
  | rar
  /-- CMA (R207). -/
  | cma
  /-- STC (R208). -/
  | stc
  /-- CMC (R209). -/
  | cmc
  -- branch, 43_branch.md
  /-- JMP a16 (R231). -/
  | jmp (a16 : Word)
  /-- Jcc a16 (R232). -/
  | jcc (cc : Cond) (a16 : Word)
  /-- CALL a16 (R233). -/
  | call (a16 : Word)
  /-- Ccc a16 (R234). -/
  | ccc (cc : Cond) (a16 : Word)
  /-- RET (R235). -/
  | ret
  /-- Rcc (R236). -/
  | rcc (cc : Cond)
  /-- PCHL (R237). -/
  | pchl
  /-- RST n (R238). -/
  | rst (n : BitVec 3)
  -- stack, 44_stack.md
  /-- PUSH rp: BC, DE or HL (R260). -/
  | push (rp : RegPair)
  /-- PUSH PSW (R261). -/
  | pushPsw
  /-- POP rp: BC, DE or HL (R262). -/
  | pop (rp : RegPair)
  /-- POP PSW (R263). -/
  | popPsw
  /-- XTHL (R264). -/
  | xthl
  /-- SPHL (R265). -/
  | sphl
  -- input/output and control, 45_io_control.md
  /-- IN port (R280). -/
  | inPort (port : Byte)
  /-- OUT port (R281). -/
  | outPort (port : Byte)
  /-- EI (R282). -/
  | ei
  /-- DI (R283). -/
  | di
  /-- HLT (R284). -/
  | hlt
  /-- NOP (R285). -/
  | nop
  -- the twelve unimplemented opcode values, 30_encoding.md R99 and 60_exceptions.md R300
  /-- The unimplemented value 0x08 (R99, R300). -/
  | unimpl08
  /-- The unimplemented value 0x10 (R99, R300). -/
  | unimpl10
  /-- The unimplemented value 0x18 (R99, R300). -/
  | unimpl18
  /-- The unimplemented value 0x20 (R99, R300). -/
  | unimpl20
  /-- The unimplemented value 0x28 (R99, R300). -/
  | unimpl28
  /-- The unimplemented value 0x30 (R99, R300). -/
  | unimpl30
  /-- The unimplemented value 0x38 (R99, R300). -/
  | unimpl38
  /-- The unimplemented value 0xCB (R99, R300). -/
  | unimplCB
  /-- The unimplemented value 0xD9 (R99, R300). -/
  | unimplD9
  /-- The unimplemented value 0xDD (R99, R300). -/
  | unimplDD
  /-- The unimplemented value 0xED (R99, R300). -/
  | unimplED
  /-- The unimplemented value 0xFD (R99, R300). -/
  | unimplFD
  deriving DecidableEq, Repr

end Sys2Proof
end

