-- ==== Sys2Proof/WellFormed.lean ====
section
/-!
DEFINITION. Which terms of `Instr` are instructions: the pair field of PUSH and POP names BC, DE or HL (code 3 is PSW, which has
forms of its own; R260, R262), that of LDAX and STAX names BC or DE (R131, R132). Every other operand type holds exactly
the values its field can name.
-/

namespace Sys2Proof

/-- The pairs PUSH rp and POP rp can name (R24, R260, R262). -/
def RegPair.isStackPair : RegPair → Bool
  | .bc | .de | .hl => true
  | .sp => false

/-- The pairs LDAX and STAX can name (R24, R131, R132). -/
def RegPair.isIndexPair : RegPair → Bool
  | .bc | .de => true
  | .hl | .sp => false

/-- The term names an instruction of the table. The decoder answers no other. -/
def Instr.wellFormed : Instr → Bool
  | .push rp => rp.isStackPair
  | .pop rp => rp.isStackPair
  | .ldax rp => rp.isIndexPair
  | .stax rp => rp.isIndexPair
  | _ => true

end Sys2Proof
end

