-- ==== Sys2Proof/Decode.lean ====
section
/-!
DEFINITION. The decoder, from the 16 by 16 opcode map of R98 (30_encoding.md), and the encoder, from the bit patterns and
field codes of R23, R24, R91, R92, R98 and R230. The two are written from different tables of the spec, so that their
agreement checks one against the other. An unimplemented opcode value decodes to its own constructor (R105).
-/

namespace Sys2Proof

/-! ## Field codes -/

/-- Register codes (R23). Code 6 is the operand M and belongs to no register. -/
def Reg.code : Reg → BitVec 3
  | .b => 0 | .c => 1 | .d => 2 | .e => 3 | .h => 4 | .l => 5 | .a => 7

/-- Pair codes (R24). -/
def RegPair.code : RegPair → BitVec 2
  | .bc => 0 | .de => 1 | .hl => 2 | .sp => 3

/-- Condition codes (R230). -/
def Cond.code : Cond → BitVec 3
  | .nz => 0 | .z => 1 | .nc => 2 | .c => 3 | .po => 4 | .pe => 5 | .p => 6 | .m => 7

/-! ## Decoding -/

/-- What an opcode Byte selects: an instruction complete in one Byte (format F1), one that takes a second Byte (F2), or one
that takes a Word from its second and third Bytes (F3) (R91). -/
inductive OpcodeForm where
  | one (i : Instr)
  | imm (k : Byte → Instr)
  | addr (k : Word → Instr)

/-- Row 0x of the map of R98. -/
def opcodeRow0 : List OpcodeForm :=
  [.one .nop, .addr (.lxi .bc), .one (.stax .bc), .one (.inx .bc),
   .one (.inrR .b), .one (.dcrR .b), .imm (.mviR .b), .one .rlc,
   .one .unimpl08, .one (.dad .bc), .one (.ldax .bc), .one (.dcx .bc),
   .one (.inrR .c), .one (.dcrR .c), .imm (.mviR .c), .one .rrc]

/-- Row 1x of the map of R98. -/
def opcodeRow1 : List OpcodeForm :=
  [.one .unimpl10, .addr (.lxi .de), .one (.stax .de), .one (.inx .de),
   .one (.inrR .d), .one (.dcrR .d), .imm (.mviR .d), .one .ral,
   .one .unimpl18, .one (.dad .de), .one (.ldax .de), .one (.dcx .de),
   .one (.inrR .e), .one (.dcrR .e), .imm (.mviR .e), .one .rar]

/-- Row 2x of the map of R98. -/
def opcodeRow2 : List OpcodeForm :=
  [.one .unimpl20, .addr (.lxi .hl), .addr .shld, .one (.inx .hl),
   .one (.inrR .h), .one (.dcrR .h), .imm (.mviR .h), .one .daa,
   .one .unimpl28, .one (.dad .hl), .addr .lhld, .one (.dcx .hl),
   .one (.inrR .l), .one (.dcrR .l), .imm (.mviR .l), .one .cma]

/-- Row 3x of the map of R98. -/
def opcodeRow3 : List OpcodeForm :=
  [.one .unimpl30, .addr (.lxi .sp), .addr .sta, .one (.inx .sp),
   .one .inrM, .one .dcrM, .imm .mviM, .one .stc,
   .one .unimpl38, .one (.dad .sp), .addr .lda, .one (.dcx .sp),
   .one (.inrR .a), .one (.dcrR .a), .imm (.mviR .a), .one .cmc]

/-- Row 4x of the map of R98. -/
def opcodeRow4 : List OpcodeForm :=
  [.one (.movRR .b .b), .one (.movRR .b .c), .one (.movRR .b .d), .one (.movRR .b .e),
   .one (.movRR .b .h), .one (.movRR .b .l), .one (.movRM .b), .one (.movRR .b .a),
   .one (.movRR .c .b), .one (.movRR .c .c), .one (.movRR .c .d), .one (.movRR .c .e),
   .one (.movRR .c .h), .one (.movRR .c .l), .one (.movRM .c), .one (.movRR .c .a)]

/-- Row 5x of the map of R98. -/
def opcodeRow5 : List OpcodeForm :=
  [.one (.movRR .d .b), .one (.movRR .d .c), .one (.movRR .d .d), .one (.movRR .d .e),
   .one (.movRR .d .h), .one (.movRR .d .l), .one (.movRM .d), .one (.movRR .d .a),
   .one (.movRR .e .b), .one (.movRR .e .c), .one (.movRR .e .d), .one (.movRR .e .e),
   .one (.movRR .e .h), .one (.movRR .e .l), .one (.movRM .e), .one (.movRR .e .a)]

/-- Row 6x of the map of R98. -/
def opcodeRow6 : List OpcodeForm :=
  [.one (.movRR .h .b), .one (.movRR .h .c), .one (.movRR .h .d), .one (.movRR .h .e),
   .one (.movRR .h .h), .one (.movRR .h .l), .one (.movRM .h), .one (.movRR .h .a),
   .one (.movRR .l .b), .one (.movRR .l .c), .one (.movRR .l .d), .one (.movRR .l .e),
   .one (.movRR .l .h), .one (.movRR .l .l), .one (.movRM .l), .one (.movRR .l .a)]

/-- Row 7x of the map of R98. -/
def opcodeRow7 : List OpcodeForm :=
  [.one (.movMR .b), .one (.movMR .c), .one (.movMR .d), .one (.movMR .e),
   .one (.movMR .h), .one (.movMR .l), .one .hlt, .one (.movMR .a),
   .one (.movRR .a .b), .one (.movRR .a .c), .one (.movRR .a .d), .one (.movRR .a .e),
   .one (.movRR .a .h), .one (.movRR .a .l), .one (.movRM .a), .one (.movRR .a .a)]

/-- Row 8x of the map of R98. -/
def opcodeRow8 : List OpcodeForm :=
  [.one (.addR .b), .one (.addR .c), .one (.addR .d), .one (.addR .e),
   .one (.addR .h), .one (.addR .l), .one .addM, .one (.addR .a),
   .one (.adcR .b), .one (.adcR .c), .one (.adcR .d), .one (.adcR .e),
   .one (.adcR .h), .one (.adcR .l), .one .adcM, .one (.adcR .a)]

/-- Row 9x of the map of R98. -/
def opcodeRow9 : List OpcodeForm :=
  [.one (.subR .b), .one (.subR .c), .one (.subR .d), .one (.subR .e),
   .one (.subR .h), .one (.subR .l), .one .subM, .one (.subR .a),
   .one (.sbbR .b), .one (.sbbR .c), .one (.sbbR .d), .one (.sbbR .e),
   .one (.sbbR .h), .one (.sbbR .l), .one .sbbM, .one (.sbbR .a)]

/-- Row Ax of the map of R98. -/
def opcodeRowA : List OpcodeForm :=
  [.one (.anaR .b), .one (.anaR .c), .one (.anaR .d), .one (.anaR .e),
   .one (.anaR .h), .one (.anaR .l), .one .anaM, .one (.anaR .a),
   .one (.xraR .b), .one (.xraR .c), .one (.xraR .d), .one (.xraR .e),
   .one (.xraR .h), .one (.xraR .l), .one .xraM, .one (.xraR .a)]

/-- Row Bx of the map of R98. -/
def opcodeRowB : List OpcodeForm :=
  [.one (.oraR .b), .one (.oraR .c), .one (.oraR .d), .one (.oraR .e),
   .one (.oraR .h), .one (.oraR .l), .one .oraM, .one (.oraR .a),
   .one (.cmpR .b), .one (.cmpR .c), .one (.cmpR .d), .one (.cmpR .e),
   .one (.cmpR .h), .one (.cmpR .l), .one .cmpM, .one (.cmpR .a)]

/-- Row Cx of the map of R98. -/
def opcodeRowC : List OpcodeForm :=
  [.one (.rcc .nz), .one (.pop .bc), .addr (.jcc .nz), .addr .jmp,
   .addr (.ccc .nz), .one (.push .bc), .imm .adi, .one (.rst 0),
   .one (.rcc .z), .one .ret, .addr (.jcc .z), .one .unimplCB,
   .addr (.ccc .z), .addr .call, .imm .aci, .one (.rst 1)]

/-- Row Dx of the map of R98. -/
def opcodeRowD : List OpcodeForm :=
  [.one (.rcc .nc), .one (.pop .de), .addr (.jcc .nc), .imm .outPort,
   .addr (.ccc .nc), .one (.push .de), .imm .sui, .one (.rst 2),
   .one (.rcc .c), .one .unimplD9, .addr (.jcc .c), .imm .inPort,
   .addr (.ccc .c), .one .unimplDD, .imm .sbi, .one (.rst 3)]

/-- Row Ex of the map of R98. -/
def opcodeRowE : List OpcodeForm :=
  [.one (.rcc .po), .one (.pop .hl), .addr (.jcc .po), .one .xthl,
   .addr (.ccc .po), .one (.push .hl), .imm .ani, .one (.rst 4),
   .one (.rcc .pe), .one .pchl, .addr (.jcc .pe), .one .xchg,
   .addr (.ccc .pe), .one .unimplED, .imm .xri, .one (.rst 5)]

/-- Row Fx of the map of R98. -/
def opcodeRowF : List OpcodeForm :=
  [.one (.rcc .p), .one .popPsw, .addr (.jcc .p), .one .di,
   .addr (.ccc .p), .one .pushPsw, .imm .ori, .one (.rst 6),
   .one (.rcc .m), .one .sphl, .addr (.jcc .m), .one .ei,
   .addr (.ccc .m), .one .unimplFD, .imm .cpi, .one (.rst 7)]

/-- The complete map of R98, opcode 0x00 first. -/
def opcodeMap : List OpcodeForm :=
  opcodeRow0 ++ opcodeRow1 ++ opcodeRow2 ++ opcodeRow3 ++ opcodeRow4 ++ opcodeRow5 ++ opcodeRow6 ++ opcodeRow7 ++
  opcodeRow8 ++ opcodeRow9 ++ opcodeRowA ++ opcodeRowB ++ opcodeRowC ++ opcodeRowD ++ opcodeRowE ++ opcodeRowF

/-- The form an opcode Byte selects (R90, R105). The map has an entry for each of the 256 values, so the default is not used. -/
def decodeOpcode (opcode : Byte) : OpcodeForm :=
  opcodeMap.getD opcode.toNat (.one .unimplFD)

/-- The instruction whose Bytes are the first one, two or three of `b0 b1 b2` (R90). The Word operand is low Byte first (R97). -/
def decodeBytes (b0 b1 b2 : Byte) : Instr :=
  match decodeOpcode b0 with
  | .one i => i
  | .imm k => k b1
  | .addr k => k (joinBytes b2 b1)

/-- Why a list of Bytes holds no instruction. Memory never runs out (R60), so the machine itself meets neither. -/
inductive DecodeError where
  /-- There is no Byte. -/
  | empty
  /-- The operand Bytes the opcode calls for are missing. -/
  | truncated (opcode : Byte)
  deriving DecidableEq, Repr

/-- The first instruction of a list of Bytes, and the Bytes after it (R90, R101, R105). -/
def decode : List Byte → Except DecodeError (Instr × List Byte)
  | [] => .error .empty
  | b0 :: rest =>
    match decodeOpcode b0, rest with
    | .one i, rest => .ok (i, rest)
    | .imm k, b1 :: rest => .ok (k b1, rest)
    | .addr k, b1 :: b2 :: rest => .ok (k (joinBytes b2 b1), rest)
    | .imm _, [] => .error (.truncated b0)
    | .addr _, _ => .error (.truncated b0)

/-- The three Bytes at the bottom of an instruction given as one number, bit 0 the least significant bit of the first Byte,
the bits from `nbits` up being 0. -/
def tableWordBytes (nbits w : Nat) : List Byte :=
  let v := w % 2 ^ nbits
  [BitVec.ofNat 8 v, BitVec.ofNat 8 (v / 256), BitVec.ofNat 8 (v / 65536)]

/-- What the decoder reads from an instruction numbered as spec/opcode_table.json numbers its bits. -/
def decodeTableWord (nbits w : Nat) : Option Instr :=
  match decode (tableWordBytes nbits w) with
  | .ok (i, _) => some i
  | .error _ => none

/-! ## Encoding -/

/-- The opcode Byte of an instruction, by the encoding pattern of its rule and of R98. -/
def encodeOpcode : Instr → Byte
  -- data transfer, 40_data_transfer.md
  | .movRR dst src => 0b01#2 ++ dst.code ++ src.code
  | .movRM dst => 0b01#2 ++ dst.code ++ 0b110#3
  | .movMR src => 0b01110#5 ++ src.code
  | .mviR dst _ => 0b00#2 ++ dst.code ++ 0b110#3
  | .mviM _ => 0b00110110#8
  | .lxi rp _ => 0b00#2 ++ rp.code ++ 0b0001#4
  | .lda _ => 0b00111010#8
  | .sta _ => 0b00110010#8
  | .lhld _ => 0b00101010#8
  | .shld _ => 0b00100010#8
  | .ldax rp => 0b000#3 ++ rp.code.extractLsb' 0 1 ++ 0b1010#4
  | .stax rp => 0b000#3 ++ rp.code.extractLsb' 0 1 ++ 0b0010#4
  | .xchg => 0b11101011#8
  -- arithmetic, 41_arithmetic.md
  | .addR src => 0b10000#5 ++ src.code
  | .addM => 0b10000110#8
  | .adi _ => 0b11000110#8
  | .adcR src => 0b10001#5 ++ src.code
  | .adcM => 0b10001110#8
  | .aci _ => 0b11001110#8
  | .subR src => 0b10010#5 ++ src.code
  | .subM => 0b10010110#8
  | .sui _ => 0b11010110#8
  | .sbbR src => 0b10011#5 ++ src.code
  | .sbbM => 0b10011110#8
  | .sbi _ => 0b11011110#8
  | .inrR dst => 0b00#2 ++ dst.code ++ 0b100#3
  | .inrM => 0b00110100#8
  | .dcrR dst => 0b00#2 ++ dst.code ++ 0b101#3
  | .dcrM => 0b00110101#8
  | .inx rp => 0b00#2 ++ rp.code ++ 0b0011#4
  | .dcx rp => 0b00#2 ++ rp.code ++ 0b1011#4
  | .dad rp => 0b00#2 ++ rp.code ++ 0b1001#4
  | .daa => 0b00100111#8
  -- logical, compare, rotate, carry, 42_logical.md
  | .anaR src => 0b10100#5 ++ src.code
  | .anaM => 0b10100110#8
  | .ani _ => 0b11100110#8
  | .xraR src => 0b10101#5 ++ src.code
  | .xraM => 0b10101110#8
  | .xri _ => 0b11101110#8
  | .oraR src => 0b10110#5 ++ src.code
  | .oraM => 0b10110110#8
  | .ori _ => 0b11110110#8
  | .cmpR src => 0b10111#5 ++ src.code
  | .cmpM => 0b10111110#8
  | .cpi _ => 0b11111110#8
  | .rlc => 0b00000111#8
  | .rrc => 0b00001111#8
  | .ral => 0b00010111#8
  | .rar => 0b00011111#8
  | .cma => 0b00101111#8
  | .stc => 0b00110111#8
  | .cmc => 0b00111111#8
  -- branch, 43_branch.md
  | .jmp _ => 0b11000011#8
  | .jcc cc _ => 0b11#2 ++ cc.code ++ 0b010#3
  | .call _ => 0b11001101#8
  | .ccc cc _ => 0b11#2 ++ cc.code ++ 0b100#3
  | .ret => 0b11001001#8
  | .rcc cc => 0b11#2 ++ cc.code ++ 0b000#3
  | .pchl => 0b11101001#8
  | .rst n => 0b11#2 ++ n ++ 0b111#3
  -- stack, 44_stack.md
  | .push rp => 0b11#2 ++ rp.code ++ 0b0101#4
  | .pushPsw => 0b11110101#8
  | .pop rp => 0b11#2 ++ rp.code ++ 0b0001#4
  | .popPsw => 0b11110001#8
  | .xthl => 0b11100011#8
  | .sphl => 0b11111001#8
  -- input/output and control, 45_io_control.md
  | .inPort _ => 0b11011011#8
  | .outPort _ => 0b11010011#8
  | .ei => 0b11111011#8
  | .di => 0b11110011#8
  | .hlt => 0b01110110#8
  | .nop => 0b00000000#8
  -- the twelve unimplemented opcode values, 30_encoding.md R99 and 60_exceptions.md R300
  | .unimpl08 => 0b00001000#8
  | .unimpl10 => 0b00010000#8
  | .unimpl18 => 0b00011000#8
  | .unimpl20 => 0b00100000#8
  | .unimpl28 => 0b00101000#8
  | .unimpl30 => 0b00110000#8
  | .unimpl38 => 0b00111000#8
  | .unimplCB => 0b11001011#8
  | .unimplD9 => 0b11011001#8
  | .unimplDD => 0b11011101#8
  | .unimplED => 0b11101101#8
  | .unimplFD => 0b11111101#8

/-- The operand Bytes after the opcode (R91): a Byte as it is (R96), a Word low Byte first (R97). -/
def Instr.operandBytes : Instr → List Byte
  | .mviR _ d8 => [d8]
  | .mviM d8 => [d8]
  | .lxi _ d16 => [loByte d16, hiByte d16]
  | .lda a16 => [loByte a16, hiByte a16]
  | .sta a16 => [loByte a16, hiByte a16]
  | .lhld a16 => [loByte a16, hiByte a16]
  | .shld a16 => [loByte a16, hiByte a16]
  | .adi d8 => [d8]
  | .aci d8 => [d8]
  | .sui d8 => [d8]
  | .sbi d8 => [d8]
  | .ani d8 => [d8]
  | .xri d8 => [d8]
  | .ori d8 => [d8]
  | .cpi d8 => [d8]
  | .jmp a16 => [loByte a16, hiByte a16]
  | .jcc _ a16 => [loByte a16, hiByte a16]
  | .call a16 => [loByte a16, hiByte a16]
  | .ccc _ a16 => [loByte a16, hiByte a16]
  | .inPort port => [port]
  | .outPort port => [port]
  | _ => []

/-- The Bytes of an instruction, in address order (R66, R91). -/
def encode (i : Instr) : List Byte :=
  encodeOpcode i :: i.operandBytes

/-- The length in Bytes (R90, R101; the row's length in spec/opcode_table.json). -/
def Instr.size : Instr → Nat
  | .lxi _ _ | .lda _ | .sta _ | .lhld _ | .shld _ | .jmp _ | .jcc _ _ | .call _ | .ccc _ _ => 3
  | .mviR _ _ | .mviM _ | .adi _ | .aci _ | .sui _ | .sbi _ | .ani _ | .xri _ | .ori _ | .cpi _ => 2
  | .inPort _ | .outPort _ => 2
  | _ => 1

/-- The opcode value of an unimplemented row (R99), `none` for the 72 implemented forms. -/
def Instr.unimplemented : Instr → Option Byte
  | .unimpl08 => some 0x08
  | .unimpl10 => some 0x10
  | .unimpl18 => some 0x18
  | .unimpl20 => some 0x20
  | .unimpl28 => some 0x28
  | .unimpl30 => some 0x30
  | .unimpl38 => some 0x38
  | .unimplCB => some 0xCB
  | .unimplD9 => some 0xD9
  | .unimplDD => some 0xDD
  | .unimplED => some 0xED
  | .unimplFD => some 0xFD
  | _ => none

/-- How far the fetch moves PC past the instruction: its length (R25, R104), but not at all for an unimplemented value, which
faults before PC is advanced and has no length (R101, R104). -/
def Instr.fetchAdvance (i : Instr) : Nat :=
  match i.unimplemented with
  | some _ => 0
  | none => i.size

end Sys2Proof
end

