-- ==== Sys2Proof/Config.lean ====
section
/-!
DEFINITION. What is fixed for one run of the machine (the OPEN parameters of rule R6 of 00_scope.md) and the free values
the spec leaves open: the answers of the I/O side (R286, D21) and the cycle counts nothing fixes (U2).
-/

namespace Sys2Proof

/-- One transaction of the I/O Port Bus (R286): an answered `IoIn(port)` or an `IoOut(port, value)`. -/
inductive IoEvent where
  | input (port : Byte) (value : Byte)
  | output (port : Byte) (value : Byte)
  deriving DecidableEq, Repr

/-- The OPEN parameters of R6 that outlive the launch. No step writes them; `MEM_INIT`, the third, is the memory that
`State.launch` takes. -/
structure Params where
  /-- `ENTRY_PC`, the PC after construction and after an external reset (R40, R341, D1). -/
  entryPc : Word
  /-- `INT_ACK_CLEARS_INTE`: an interrupt acceptance clears INTE (R305, D14). -/
  intAckClearsInte : Bool
  deriving DecidableEq, Repr

/-- FREE VALUE (DESIGN CHOICE, log entry 5; R286, D21, U5): the Byte the I/O side answers to an IN. It may depend on the port
and on the whole history of earlier transactions, and nothing constrains it. -/
opaque Config.ioIn (history : List IoEvent) (port : Byte) : Byte

/-- FREE VALUE (DESIGN CHOICE, log entry 14; U2): the cycle count of the n-th kind of step that has none (0 held, 1 faulting).
No transition reads it. -/
opaque Config.openCycles (kind : Nat) : Nat

end Sys2Proof
end

