-- ==== Sys2Proof/Machine/State.lean ====
section
/-!
DEFINITION. The whole state of the CORE (the tuple at the head of 10_state.md, closed by R39), the model's own fields beside
it, the state after reset (R40), and the reasons a step can stop (R8, R300, R307).
-/

namespace Sys2Proof.Machine

/-- The five flags, each one independent bit (R27). The flags byte of R28 is a view (`State.flagByte`), not storage. -/
structure Flags where
  /-- S, Sign. -/
  s : Bool
  /-- Z, Zero. -/
  z : Bool
  /-- AC, Auxiliary Carry. -/
  ac : Bool
  /-- P, Parity. -/
  p : Bool
  /-- CY, Carry. -/
  cy : Bool
  deriving DecidableEq, Repr

/-- Memory (R38, R60): the addresses whose Byte differs from what an unlisted address reads as, strictly rising
(`Memory.wf`). -/
abbrev Memory := List Host.Cell

/-- The state of the CORE (10_state.md), and after it the model's own fields. -/
structure State where
  /-- A, the accumulator (R20). -/
  a : Byte
  /-- B (R20). -/
  b : Byte
  /-- C (R20). -/
  c : Byte
  /-- D (R20). -/
  d : Byte
  /-- E (R20). -/
  e : Byte
  /-- H (R20). -/
  h : Byte
  /-- L (R20). -/
  l : Byte
  /-- S, Z, AC, P, CY (R27). -/
  flags : Flags
  /-- PC (R25). -/
  pc : Word
  /-- SP (R26). -/
  sp : Word
  /-- INTE, the interrupt-enable bit (R33). -/
  inte : Bool
  /-- HALTED (R34). -/
  halted : Bool
  /-- PENDING, the pending-interrupt-vector slot (R35). -/
  pending : Option Byte
  /-- Mem (R38). -/
  mem : Memory
  /-- MODEL's own field (log entry 4): the OPEN parameters of R6; no step writes it. -/
  params : Params
  /-- MODEL's own field (log entry 5): the history of I/O transactions, oldest first (R286). -/
  io : List IoEvent
  deriving DecidableEq, Repr

/-- Why the machine stops. It is the spec's one fault (R300, R302). -/
inductive Fault where
  /-- `UnimplementedOpcode{opcode, pc}` (R300): raised by the twelve unimplemented values (R99), fetched at `pc` or injected by
  an accepted interrupt with PC = `pc` (R305). Nothing changes. SAFE: it is the spec's own outcome, and the chip runs on. -/
  | unimplementedOpcode (opcode : Byte) (pc : Word)
  deriving DecidableEq, Repr

/-- Where the model declines to give a step a meaning. -/
inductive Refusal where
  /-- An arm of `exec` whose instruction has no meaning yet. No arm raises it in this model. SAFE. -/
  | notModelled (mnemonic : String)
  /-- Raised by an interrupt acceptance whose Byte selects an instruction of length 2 or 3 (R307, U1, D15): the spec gives it
  no meaning. SAFE: nothing can be proved of such a step but that it is refused. -/
  | injectedMultiByte (opcode : Byte)
  deriving DecidableEq, Repr

/-- The launch (R40, R342): registers, flags and SP zero, PC at `ENTRY_PC`, Running, interrupts disabled, nothing pending,
memory as `MEM_INIT`, no I/O transaction yet. -/
def State.launch (params : Params) (memInit : Memory) : State where
  a := 0
  b := 0
  c := 0
  d := 0
  e := 0
  h := 0
  l := 0
  flags := ⟨false, false, false, false, false⟩
  pc := params.entryPc
  sp := 0
  inte := false
  halted := false
  pending := none
  mem := memInit
  params := params
  io := []

/-- The parameters of `State.reset`: DESIGN CHOICE `ENTRY_PC` = 0x0000 (log entry 1), `INT_ACK_CLEARS_INTE` at the spec's
default, true (log entry 3). -/
def resetParams : Params where
  entryPc := 0x0000
  intAckClearsInte := true

/-- The machine right after reset: R40 with the parameters above and nothing listed in memory (log entry 2). -/
def State.reset : State :=
  State.launch resetParams []

end Sys2Proof.Machine
end

