-- ==== Sys2Proof/Machine/Ops.lean ====
section
/-!
DEFINITION. The named operations over memory and registers: the access primitives of R64 and R65, the stack primitives of R76 and
R77 (20_memory.md), register and pair access (R21, R23, R24), the flags byte (R28), the I/O interface (R286), the one fault (R300)
and the entry part of an interrupt acceptance (R304, R305). There is no return operation beside the entry: a handler
returns with RET (R311).
-/

namespace Sys2Proof.Machine

/-! ## Memory as data -/

/-- What an address that memory does not list reads as: DESIGN CHOICE 0x00 (log entry 2). -/
def memFill : Byte := 0x00

/-- The Byte at an address (R64). -/
def Memory.lookup : Memory → Nat → Byte
  | [], _ => memFill
  | (k, v) :: rest, x => if k = x then v else Memory.lookup rest x

/-- Drop what memory lists for an address. -/
def Memory.erase (m : Memory) (x : Nat) : Memory :=
  m.filter fun cell => decide (cell.1 ≠ x)

/-- List an address that is not listed, at its place in the rising order. -/
def Memory.insert : Memory → Nat → Byte → Memory
  | [], x, v => [(x, v)]
  | (k, w) :: rest, x, v => if x < k then (x, v) :: (k, w) :: rest else (k, w) :: Memory.insert rest x v

/-- Set the Byte at an address, in canonical form (R64): writing what an unlisted address reads as removes the cell. -/
def Memory.update (m : Memory) (x : Nat) (v : Byte) : Memory :=
  if v = memFill then Memory.erase m x else Memory.insert (Memory.erase m x) x v

/-- Canonical form above a bound: addresses strictly rising from `lo`, below 65536, no cell equal to what an unlisted
address reads as. -/
def Memory.wfFrom : Nat → Memory → Bool
  | _, [] => true
  | lo, (k, v) :: rest => decide (lo ≤ k) && decide (k < 65536) && decide (v ≠ memFill) && Memory.wfFrom (k + 1) rest

/-- The canonical form of memory. -/
def Memory.wf (m : Memory) : Bool := Memory.wfFrom 0 m

/-! ## Memory access -/

/-- `MemRead(addr, 1)` (R64). -/
def State.readByte (s : State) (addr : Word) : Byte :=
  Memory.lookup s.mem addr.toNat

/-- `MemWrite(addr, 1, v)` (R64). -/
def State.writeByte (s : State) (addr : Word) (v : Byte) : State :=
  { s with mem := Memory.update s.mem addr.toNat v }

/-- `MemRead(addr, 2)`, little-endian, the second Byte at addr + 1 modulo 65536 (R65). -/
def State.readWord (s : State) (addr : Word) : Word :=
  joinBytes (s.readByte (addr + 1)) (s.readByte addr)

/-- `MemWrite(addr, 2, w)`, little-endian, the second Byte at addr + 1 modulo 65536 (R65). -/
def State.writeWord (s : State) (addr : Word) (w : Word) : State :=
  (s.writeByte addr (loByte w)).writeByte (addr + 1) (hiByte w)

/-! ## Registers, pairs and the flags byte -/

/-- `R[c]` (R10, R23). -/
def State.reg (s : State) : Reg → Byte
  | .b => s.b
  | .c => s.c
  | .d => s.d
  | .e => s.e
  | .h => s.h
  | .l => s.l
  | .a => s.a

/-- `R[c] <- v` (R10, R23). -/
def State.setReg (s : State) (r : Reg) (v : Byte) : State :=
  match r with
  | .b => { s with b := v }
  | .c => { s with c := v }
  | .d => { s with d := v }
  | .e => { s with e := v }
  | .h => { s with h := v }
  | .l => { s with l := v }
  | .a => { s with a := v }

/-- `BC = {B, C}` (R21). -/
def State.bc (s : State) : Word := joinBytes s.b s.c

/-- `DE = {D, E}` (R21). -/
def State.de (s : State) : Word := joinBytes s.d s.e

/-- `HL = {H, L}` (R21), the address of the operand M (R22). -/
def State.hl (s : State) : Word := joinBytes s.h s.l

/-- `RP[p]` (R24). -/
def State.pair (s : State) : RegPair → Word
  | .bc => s.bc
  | .de => s.de
  | .hl => s.hl
  | .sp => s.sp

/-- `RP[p] <- w` (R21, R24): the high Byte to the first-named register, the low Byte to the second. -/
def State.setPair (s : State) (rp : RegPair) (w : Word) : State :=
  match rp with
  | .bc => { s with b := hiByte w, c := loByte w }
  | .de => { s with d := hiByte w, e := loByte w }
  | .hl => { s with h := hiByte w, l := loByte w }
  | .sp => { s with sp := w }

/-- `FlagByte()` (R28, D6): S Z 0 AC 0 P 1 CY from bit 7 to bit 0. -/
def Flags.toByte (f : Flags) : Byte :=
  BitVec.ofNat 8 (bit f.s * 128 + bit f.z * 64 + bit f.ac * 16 + bit f.p * 4 + 2 + bit f.cy)

/-- `SetFlagByte(b)` (R28, D7): bits 5, 3 and 1 are ignored. -/
def Flags.ofByte (v : Byte) : Flags where
  s := v.getLsbD 7
  z := v.getLsbD 6
  ac := v.getLsbD 4
  p := v.getLsbD 2
  cy := v.getLsbD 0

/-- PSW, the pair of A (high) and the flags byte (low) (R24, R28). -/
def State.psw (s : State) : Word := joinBytes s.a s.flags.toByte

/-- Write PSW: the flags from the low Byte, A from the high Byte (R263). -/
def State.setPsw (s : State) (w : Word) : State :=
  { s with flags := Flags.ofByte (loByte w), a := hiByte w }

/-! ## Stack -/

/-- `Push16(w)` (R76): SP down by 2, then the Word at the new SP. -/
def State.push16 (s : State) (w : Word) : State :=
  { s with sp := s.sp - 2 }.writeWord (s.sp - 2) w

/-- The Word `Pop16()` returns (R77). -/
def State.top16 (s : State) : Word := s.readWord s.sp

/-- What `Pop16()` does to the state (R77): SP up by 2, memory as it was. -/
def State.drop16 (s : State) : State :=
  { s with sp := s.sp + 2 }

/-! ## Input and output -/

/-- The Byte `IoIn(port)` answers now: a free value (R286, D21, U5; log entry 5). -/
def State.ioAnswer (s : State) (port : Byte) : Byte :=
  Config.ioIn s.io port

/-- Append one transaction to the history (R286). -/
def State.recordIo (s : State) (e : IoEvent) : State :=
  { s with io := s.io ++ [e] }

/-! ## The fault, and the entry of an interrupt -/

/-- `raise UnimplementedOpcode(opcode, PC)` (R13, R300): PC has not been advanced, and no state is written. -/
def raiseUnimplemented (opcode : Byte) (s : State) : Host.Outcome State Fault Refusal :=
  .fault (.unimplementedOpcode opcode s.pc)

/-- The acceptance test (R304, D13): the Byte of a pending request that INTE lets in. -/
def State.acceptable (s : State) : Option Byte :=
  if s.inte then s.pending else none

/-- The three writes of an acceptance before its instruction executes (R305, D14): the slot is emptied, the halt ends, and
INTE is cleared when `INT_ACK_CLEARS_INTE` is true. PC is not advanced. -/
def State.acknowledge (s : State) : State :=
  { s with pending := none, halted := false, inte := s.inte && !s.params.intAckClearsInte }

/-- The instruction at PC (R96, R97, R104): its Bytes lie at PC, PC + 1 and PC + 2 modulo 65536, and those after its length
are not looked at by `decodeBytes`. -/
def State.fetch (s : State) : Instr :=
  decodeBytes (s.readByte s.pc) (s.readByte (s.pc + 1)) (s.readByte (s.pc + 2))

/-- PC after the fetch of an instruction (R25, R104). -/
def State.advancePc (s : State) (i : Instr) : State :=
  { s with pc := s.pc + BitVec.ofNat 16 i.fetchAdvance }

/-- Store Bytes at consecutive addresses modulo 65536. -/
def State.writeBytes (s : State) (addr : Word) : List Byte → State
  | [] => s
  | v :: rest => (s.writeByte addr v).writeBytes (addr + 1) rest

end Sys2Proof.Machine
end

