-- ==== Sys2Proof/Machine/Flags.lean ====
section
/-!
DEFINITION. Every result and flag computation: SZP (R30), the adder functions Add8 and Sub8 (R150, R151), increment and decrement
(R165, R167), the 16-bit add (R171), decimal adjust (R172), the logic function (R190) and the rotates (R203 to R206).
Each is over the integers, narrowed at the end, as its rule writes it.
-/

namespace Sys2Proof.Machine

/-- `SZP(r)` with the AC and the CY an instruction defines, or keeps (R30): S, Z and P are functions of the result. -/
def resultFlags (r : Byte) (ac cy : Bool) : Flags where
  s := r.getLsbD 7
  z := decide (r = 0)
  ac := ac
  p := parity r
  cy := cy

/-! ## Add and subtract, 8-bit -/

/-- The integer `a + v + c` of Add8 (R150). -/
def add8Sum (a v : Byte) (c : Bool) : Nat := a.toNat + v.toNat + bit c

/-- The Byte Add8 returns (R150). -/
def add8 (a v : Byte) (c : Bool) : Byte := BitVec.ofNat 8 (add8Sum a v c)

/-- The five flags Add8 writes (R150). -/
def add8Flags (a v : Byte) (c : Bool) : Flags :=
  resultFlags (add8 a v c) (decide (lowNibble a + lowNibble v + bit c > 15)) (decide (add8Sum a v c > 255))

/-- The integer `a - v - b` of Sub8 (R151). -/
def sub8Diff (a v : Byte) (b : Bool) : Int := (a.toNat : Int) - (v.toNat : Int) - (bit b : Int)

/-- The Byte Sub8 returns (R151). -/
def sub8 (a v : Byte) (b : Bool) : Byte := BitVec.ofInt 8 (sub8Diff a v b)

/-- The five flags Sub8 writes (R151, D9): CY is the borrow, AC the carry out of bit 3 of `a + ~v + (1 - b)`. -/
def sub8Flags (a v : Byte) (b : Bool) : Flags :=
  resultFlags (sub8 a v b) (decide (lowNibble a + (15 - lowNibble v) + (1 - bit b) > 15)) (decide (sub8Diff a v b < 0))

/-! ## Increment and decrement, 8-bit -/

/-- `(v + 1) mod 256` (R165). -/
def inc8 (v : Byte) : Byte := v + 1

/-- The flags of INR (R165): CY is kept. -/
def inc8Flags (v : Byte) (f : Flags) : Flags :=
  resultFlags (inc8 v) (decide (lowNibble v = 15)) f.cy

/-- `(v - 1) mod 256` (R167). -/
def dec8 (v : Byte) : Byte := v - 1

/-- The flags of DCR (R167, D9): CY is kept. -/
def dec8Flags (v : Byte) (f : Flags) : Flags :=
  resultFlags (dec8 v) (decide (lowNibble v ≠ 0)) f.cy

/-! ## Add, 16-bit -/

/-- The integer `HL + RP[pp]` of DAD (R171). -/
def add16Sum (x y : Word) : Nat := x.toNat + y.toNat

/-- The Word DAD writes to HL (R171). -/
def add16 (x y : Word) : Word := BitVec.ofNat 16 (add16Sum x y)

/-- The CY of DAD, the 17th bit of the sum (R171). -/
def add16Carry (x y : Word) : Bool := decide (add16Sum x y > 65535)

/-! ## Decimal adjust (R172, D10, C1, C2) -/

/-- The +6 step is done. -/
def daaLow (a : Byte) (f : Flags) : Bool := decide (lowNibble a > 9) || f.ac

/-- `t` after the +6 step: an integer, not a Byte (C2). -/
def daaStep1 (a : Byte) (f : Flags) : Nat := a.toNat + if daaLow a f then 6 else 0

/-- The +0x60 step is done. -/
def daaHigh (a : Byte) (f : Flags) : Bool := decide (daaStep1 a f / 16 > 9) || f.cy

/-- `t` at the end. -/
def daaStep2 (a : Byte) (f : Flags) : Nat := daaStep1 a f + if daaHigh a f then 0x60 else 0

/-- The A that DAA leaves. -/
def daaResult (a : Byte) (f : Flags) : Byte := BitVec.ofNat 8 (daaStep2 a f)

/-- The flags DAA leaves: AC from the +6 step, CY never cleared (C1). -/
def daaFlags (a : Byte) (f : Flags) : Flags :=
  resultFlags (daaResult a f)
    (if daaLow a f then decide (lowNibble a + 6 > 15) else f.ac)
    (if daaHigh a f then f.cy || decide (daaStep2 a f > 255) else f.cy)

/-! ## Logic -/

/-- The flags of `Logic(op, a, v)` (R190) for its result `r`: CY is 0, AC is as the operation says. -/
def logicFlags (r : Byte) (ac : Bool) : Flags :=
  resultFlags r ac false

/-- The AC of an AND (R190, D8; log entry 13): bit 3 of the OR of the operands. -/
def andAc (a v : Byte) : Bool := (a ||| v).getLsbD 3

/-! ## Rotates -/

/-- RLC (R203): `((A * 2) mod 256) + c` with c the old bit 7. -/
def rotLeft (a : Byte) : Byte := BitVec.ofNat 8 (a.toNat * 2 % 256 + bit (a.getLsbD 7))

/-- RRC (R204): `(A div 2) + c * 128` with c the old bit 0. -/
def rotRight (a : Byte) : Byte := BitVec.ofNat 8 (a.toNat / 2 + bit (a.getLsbD 0) * 128)

/-- RAL (R205): `((A * 2) mod 256) + CY`. -/
def rotLeftCarry (a : Byte) (cy : Bool) : Byte := BitVec.ofNat 8 (a.toNat * 2 % 256 + bit cy)

/-- RAR (R206): `(A div 2) + CY * 128`. -/
def rotRightCarry (a : Byte) (cy : Bool) : Byte := BitVec.ofNat 8 (a.toNat / 2 + bit cy * 128)

end Sys2Proof.Machine
end

