-- ==== Sys2Proof/Machine/Operands.lean ====
section
/-!
DEFINITION. The operand forms: the memory operand M (R22), the effective addresses of loads and stores (R134), and the condition
field (R230). Register operands are `State.reg` and `State.pair`; immediates are the instruction's own fields.
-/

namespace Sys2Proof.Machine

/-- A read of M: `MemRead(HL, 1)` (R22). -/
def State.readM (s : State) : Byte := s.readByte s.hl

/-- A write of M: `MemWrite(HL, 1, v)` (R22). -/
def State.writeM (s : State) (v : Byte) : State := s.writeByte s.hl v

/-- `Cond(ccc)` (R230). -/
def Flags.holds (f : Flags) : Cond → Bool
  | .nz => !f.z
  | .z => f.z
  | .nc => !f.cy
  | .c => f.cy
  | .po => !f.p
  | .pe => f.p
  | .p => !f.s
  | .m => f.s

end Sys2Proof.Machine
end

