-- ==== Sys2Proof/Machine/Arithmetic.lean ====
section
/-!
DEFINITION. The meanings of the arithmetic instructions (41_arithmetic.md).
A meaning runs on the state after the fetch: PC is already past the instruction's Bytes (R13, R104; log entry 8), or not
advanced at all when an interrupt injected it (R305).
-/

namespace Sys2Proof.Machine

/-- `A <- Add8(A, v, c)` (R150): the shared operation of ADD, ADC and their memory and immediate forms (R152). -/
def State.addA (s : State) (v : Byte) (c : Bool) : State :=
  { s with a := add8 s.a v c, flags := add8Flags s.a v c }

/-- `A <- Sub8(A, v, b)` (R151): the shared operation of SUB, SBB and their memory and immediate forms (R152). -/
def State.subA (s : State) (v : Byte) (b : Bool) : State :=
  { s with a := sub8 s.a v b, flags := sub8Flags s.a v b }

/-- ADD r (R153): `A <- Add8(A, R[sss], 0)`. -/
def execAddR (src : Reg) (s : State) : Host.Outcome State Fault Refusal :=
  .next (s.addA (s.reg src) false)

/-- ADD M (R154): `A <- Add8(A, MemRead(HL, 1), 0)`. -/
def execAddM (s : State) : Host.Outcome State Fault Refusal :=
  .next (s.addA s.readM false)

/-- ADI d8 (R155): `A <- Add8(A, d8, 0)`. -/
def execAdi (d8 : Byte) (s : State) : Host.Outcome State Fault Refusal :=
  .next (s.addA d8 false)

/-- ADC r (R156): `A <- Add8(A, R[sss], CY)`. -/
def execAdcR (src : Reg) (s : State) : Host.Outcome State Fault Refusal :=
  .next (s.addA (s.reg src) s.flags.cy)

/-- ADC M (R157): `A <- Add8(A, MemRead(HL, 1), CY)`. -/
def execAdcM (s : State) : Host.Outcome State Fault Refusal :=
  .next (s.addA s.readM s.flags.cy)

/-- ACI d8 (R158): `A <- Add8(A, d8, CY)`. -/
def execAci (d8 : Byte) (s : State) : Host.Outcome State Fault Refusal :=
  .next (s.addA d8 s.flags.cy)

/-- SUB r (R159): `A <- Sub8(A, R[sss], 0)`. -/
def execSubR (src : Reg) (s : State) : Host.Outcome State Fault Refusal :=
  .next (s.subA (s.reg src) false)

/-- SUB M (R160): `A <- Sub8(A, MemRead(HL, 1), 0)`. -/
def execSubM (s : State) : Host.Outcome State Fault Refusal :=
  .next (s.subA s.readM false)

/-- SUI d8 (R161): `A <- Sub8(A, d8, 0)`. -/
def execSui (d8 : Byte) (s : State) : Host.Outcome State Fault Refusal :=
  .next (s.subA d8 false)

/-- SBB r (R162): `A <- Sub8(A, R[sss], CY)`. -/
def execSbbR (src : Reg) (s : State) : Host.Outcome State Fault Refusal :=
  .next (s.subA (s.reg src) s.flags.cy)

/-- SBB M (R163): `A <- Sub8(A, MemRead(HL, 1), CY)`. -/
def execSbbM (s : State) : Host.Outcome State Fault Refusal :=
  .next (s.subA s.readM s.flags.cy)

/-- SBI d8 (R164): `A <- Sub8(A, d8, CY)`. -/
def execSbi (d8 : Byte) (s : State) : Host.Outcome State Fault Refusal :=
  .next (s.subA d8 s.flags.cy)

/-- INR r (R165). CY is kept. -/
def execInrR (dst : Reg) (s : State) : Host.Outcome State Fault Refusal :=
  .next ({ s with flags := inc8Flags (s.reg dst) s.flags }.setReg dst (inc8 (s.reg dst)))

/-- INR M (R166). CY is kept. -/
def execInrM (s : State) : Host.Outcome State Fault Refusal :=
  .next ({ s with flags := inc8Flags s.readM s.flags }.writeM (inc8 s.readM))

/-- DCR r (R167). CY is kept. -/
def execDcrR (dst : Reg) (s : State) : Host.Outcome State Fault Refusal :=
  .next ({ s with flags := dec8Flags (s.reg dst) s.flags }.setReg dst (dec8 (s.reg dst)))

/-- DCR M (R168). CY is kept. -/
def execDcrM (s : State) : Host.Outcome State Fault Refusal :=
  .next ({ s with flags := dec8Flags s.readM s.flags }.writeM (dec8 s.readM))

/-- INX rp (R169): modulo 65536, no flag. -/
def execInx (rp : RegPair) (s : State) : Host.Outcome State Fault Refusal :=
  .next (s.setPair rp (s.pair rp + 1))

/-- DCX rp (R170): modulo 65536, no flag. -/
def execDcx (rp : RegPair) (s : State) : Host.Outcome State Fault Refusal :=
  .next (s.setPair rp (s.pair rp - 1))

/-- DAD rp (R171): CY only, from the 17th bit of the sum. -/
def execDad (rp : RegPair) (s : State) : Host.Outcome State Fault Refusal :=
  .next ({ s with flags := { s.flags with cy := add16Carry s.hl (s.pair rp) } }.setPair .hl (add16 s.hl (s.pair rp)))

/-- DAA (R172). -/
def execDaa (s : State) : Host.Outcome State Fault Refusal :=
  .next { s with a := daaResult s.a s.flags, flags := daaFlags s.a s.flags }

end Sys2Proof.Machine
end

