-- ==== Sys2Proof/Machine/Branch.lean ====
section
/-!
DEFINITION. The meanings of the branch instructions (43_branch.md). None writes a flag.
A meaning runs on the state after the fetch: PC is already past the instruction's Bytes (R13, R104; log entry 8), or not
advanced at all when an interrupt injected it (R305).
-/

namespace Sys2Proof.Machine

/-- `Push16(PC); PC <- target` (R233, R238): PC is the address of the next instruction. -/
def State.callTo (s : State) (target : Word) : State :=
  { s.push16 s.pc with pc := target }

/-- `PC <- Pop16()` (R235). -/
def State.returnToCaller (s : State) : State :=
  { s.drop16 with pc := s.top16 }

/-- `8 * nnn` (R238). -/
def restartTarget (n : BitVec 3) : Word := BitVec.ofNat 16 (8 * n.toNat)

/-- JMP a16 (R231). -/
def execJmp (a16 : Word) (s : State) : Host.Outcome State Fault Refusal :=
  .next { s with pc := a16 }

/-- Jcc a16 (R232): not taken, PC stays at the next instruction. -/
def execJcc (cc : Cond) (a16 : Word) (s : State) : Host.Outcome State Fault Refusal :=
  .next (if s.flags.holds cc then { s with pc := a16 } else s)

/-- CALL a16 (R233). -/
def execCall (a16 : Word) (s : State) : Host.Outcome State Fault Refusal :=
  .next (s.callTo a16)

/-- Ccc a16 (R234): not taken, nothing happens. -/
def execCcc (cc : Cond) (a16 : Word) (s : State) : Host.Outcome State Fault Refusal :=
  .next (if s.flags.holds cc then s.callTo a16 else s)

/-- RET (R235). -/
def execRet (s : State) : Host.Outcome State Fault Refusal :=
  .next s.returnToCaller

/-- Rcc (R236): not taken, nothing happens. -/
def execRcc (cc : Cond) (s : State) : Host.Outcome State Fault Refusal :=
  .next (if s.flags.holds cc then s.returnToCaller else s)

/-- PCHL (R237). -/
def execPchl (s : State) : Host.Outcome State Fault Refusal :=
  .next { s with pc := s.hl }

/-- RST n (R238): a one-Byte call to 8 * n, fetched or injected. -/
def execRst (n : BitVec 3) (s : State) : Host.Outcome State Fault Refusal :=
  .next (s.callTo (restartTarget n))

end Sys2Proof.Machine
end

