-- ==== Sys2Proof/Machine/DataTransfer.lean ====
section
/-!
DEFINITION. The meanings of the data transfer instructions (40_data_transfer.md). None touches a flag (R120).
A meaning runs on the state after the fetch: PC is already past the instruction's Bytes (R13, R104; log entry 8), or not
advanced at all when an interrupt injected it (R305).
-/

namespace Sys2Proof.Machine

/-- MOV r1,r2 (R121): `R[ddd] <- R[sss]`. -/
def execMovRR (dst src : Reg) (s : State) : Host.Outcome State Fault Refusal :=
  .next (s.setReg dst (s.reg src))

/-- MOV r,M (R122): `R[ddd] <- MemRead(HL, 1)`, at the old HL. -/
def execMovRM (dst : Reg) (s : State) : Host.Outcome State Fault Refusal :=
  .next (s.setReg dst s.readM)

/-- MOV M,r (R123): `MemWrite(HL, 1, R[sss])`. -/
def execMovMR (src : Reg) (s : State) : Host.Outcome State Fault Refusal :=
  .next (s.writeM (s.reg src))

/-- MVI r,d8 (R124). -/
def execMviR (dst : Reg) (d8 : Byte) (s : State) : Host.Outcome State Fault Refusal :=
  .next (s.setReg dst d8)

/-- MVI M,d8 (R125). -/
def execMviM (d8 : Byte) (s : State) : Host.Outcome State Fault Refusal :=
  .next (s.writeM d8)

/-- LXI rp,d16 (R126). -/
def execLxi (rp : RegPair) (d16 : Word) (s : State) : Host.Outcome State Fault Refusal :=
  .next (s.setPair rp d16)

/-- LDA a16 (R127). -/
def execLda (a16 : Word) (s : State) : Host.Outcome State Fault Refusal :=
  .next { s with a := s.readByte a16 }

/-- STA a16 (R128). -/
def execSta (a16 : Word) (s : State) : Host.Outcome State Fault Refusal :=
  .next (s.writeByte a16 s.a)

/-- LHLD a16 (R129): L from a16, H from a16 + 1. -/
def execLhld (a16 : Word) (s : State) : Host.Outcome State Fault Refusal :=
  .next (s.setPair .hl (s.readWord a16))

/-- SHLD a16 (R130): L to a16, H to a16 + 1. -/
def execShld (a16 : Word) (s : State) : Host.Outcome State Fault Refusal :=
  .next (s.writeWord a16 s.hl)

/-- LDAX rp (R131). -/
def execLdax (rp : RegPair) (s : State) : Host.Outcome State Fault Refusal :=
  .next { s with a := s.readByte (s.pair rp) }

/-- STAX rp (R132). -/
def execStax (rp : RegPair) (s : State) : Host.Outcome State Fault Refusal :=
  .next (s.writeByte (s.pair rp) s.a)

/-- XCHG (R133): H and D, L and E change places. -/
def execXchg (s : State) : Host.Outcome State Fault Refusal :=
  .next { s with h := s.d, l := s.e, d := s.h, e := s.l }

end Sys2Proof.Machine
end

