-- ==== Sys2Proof/Machine/IoControl.lean ====
section
/-!
DEFINITION. The meanings of the input/output and control instructions (45_io_control.md). None writes a flag.
A meaning runs on the state after the fetch: PC is already past the instruction's Bytes (R13, R104; log entry 8), or not
advanced at all when an interrupt injected it (R305).
-/

namespace Sys2Proof.Machine

/-- IN port (R280): one `IoIn`, its answer, a free value, to A and to the history (R286; log entry 5). -/
def execInPort (port : Byte) (s : State) : Host.Outcome State Fault Refusal :=
  .next ({ s with a := s.ioAnswer port }.recordIo (.input port (s.ioAnswer port)))

/-- OUT port (R281): one `IoOut` of A, appended to the history (R286). -/
def execOutPort (port : Byte) (s : State) : Host.Outcome State Fault Refusal :=
  .next (s.recordIo (.output port s.a))

/-- EI (R282): INTE is set, in force at the next step (D17). -/
def execEi (s : State) : Host.Outcome State Fault Refusal :=
  .next { s with inte := true }

/-- DI (R283): INTE is cleared, PENDING is not touched. -/
def execDi (s : State) : Host.Outcome State Fault Refusal :=
  .next { s with inte := false }

/-- HLT (R284): PC stays past the HLT (C7). -/
def execHlt (s : State) : Host.Outcome State Fault Refusal :=
  .next { s with halted := true }

/-- NOP (R285). -/
def execNop (s : State) : Host.Outcome State Fault Refusal :=
  .next s

end Sys2Proof.Machine
end

