-- ==== Sys2Proof/Machine/Logical.lean ====
section
/-!
DEFINITION. The meanings of the logical, compare, rotate and carry instructions (42_logical.md).
A meaning runs on the state after the fetch: PC is already past the instruction's Bytes (R13, R104; log entry 8), or not
advanced at all when an interrupt injected it (R305).
-/

namespace Sys2Proof.Machine

/-- `A <- Logic(AND, A, v)` (R190). -/
def State.andA (s : State) (v : Byte) : State :=
  { s with a := s.a &&& v, flags := logicFlags (s.a &&& v) (andAc s.a v) }

/-- `A <- Logic(XOR, A, v)` (R190). -/
def State.xorA (s : State) (v : Byte) : State :=
  { s with a := s.a ^^^ v, flags := logicFlags (s.a ^^^ v) false }

/-- `A <- Logic(OR, A, v)` (R190). -/
def State.orA (s : State) (v : Byte) : State :=
  { s with a := s.a ||| v, flags := logicFlags (s.a ||| v) false }

/-- `discard Sub8(A, v, 0)` (R200): the flags of a subtraction, A not written (C9). -/
def State.cmpA (s : State) (v : Byte) : State :=
  { s with flags := sub8Flags s.a v false }

/-- Write CY and no other flag. -/
def State.setCy (s : State) (cy : Bool) : State :=
  { s with flags := { s.flags with cy := cy } }

/-- ANA r (R191): `A <- Logic(AND, A, R[sss])`. -/
def execAnaR (src : Reg) (s : State) : Host.Outcome State Fault Refusal :=
  .next (s.andA (s.reg src))

/-- ANA M (R192): `A <- Logic(AND, A, MemRead(HL, 1))`. -/
def execAnaM (s : State) : Host.Outcome State Fault Refusal :=
  .next (s.andA s.readM)

/-- ANI d8 (R193): `A <- Logic(AND, A, d8)`. -/
def execAni (d8 : Byte) (s : State) : Host.Outcome State Fault Refusal :=
  .next (s.andA d8)

/-- XRA r (R194): `A <- Logic(XOR, A, R[sss])`. -/
def execXraR (src : Reg) (s : State) : Host.Outcome State Fault Refusal :=
  .next (s.xorA (s.reg src))

/-- XRA M (R195): `A <- Logic(XOR, A, MemRead(HL, 1))`. -/
def execXraM (s : State) : Host.Outcome State Fault Refusal :=
  .next (s.xorA s.readM)

/-- XRI d8 (R196): `A <- Logic(XOR, A, d8)`. -/
def execXri (d8 : Byte) (s : State) : Host.Outcome State Fault Refusal :=
  .next (s.xorA d8)

/-- ORA r (R197): `A <- Logic(OR, A, R[sss])`. -/
def execOraR (src : Reg) (s : State) : Host.Outcome State Fault Refusal :=
  .next (s.orA (s.reg src))

/-- ORA M (R198): `A <- Logic(OR, A, MemRead(HL, 1))`. -/
def execOraM (s : State) : Host.Outcome State Fault Refusal :=
  .next (s.orA s.readM)

/-- ORI d8 (R199): `A <- Logic(OR, A, d8)`. -/
def execOri (d8 : Byte) (s : State) : Host.Outcome State Fault Refusal :=
  .next (s.orA d8)

/-- CMP r (R200): `discard Sub8(A, R[sss], 0)`. -/
def execCmpR (src : Reg) (s : State) : Host.Outcome State Fault Refusal :=
  .next (s.cmpA (s.reg src))

/-- CMP M (R201): `discard Sub8(A, MemRead(HL, 1), 0)`. -/
def execCmpM (s : State) : Host.Outcome State Fault Refusal :=
  .next (s.cmpA s.readM)

/-- CPI d8 (R202): `discard Sub8(A, d8, 0)`. -/
def execCpi (d8 : Byte) (s : State) : Host.Outcome State Fault Refusal :=
  .next (s.cmpA d8)

/-- RLC (R203): bit 7 goes to bit 0 and to CY. -/
def execRlc (s : State) : Host.Outcome State Fault Refusal :=
  .next ({ s with a := rotLeft s.a }.setCy (s.a.getLsbD 7))

/-- RRC (R204): bit 0 goes to bit 7 and to CY. -/
def execRrc (s : State) : Host.Outcome State Fault Refusal :=
  .next ({ s with a := rotRight s.a }.setCy (s.a.getLsbD 0))

/-- RAL (R205): CY goes to bit 0, bit 7 to CY. -/
def execRal (s : State) : Host.Outcome State Fault Refusal :=
  .next ({ s with a := rotLeftCarry s.a s.flags.cy }.setCy (s.a.getLsbD 7))

/-- RAR (R206): CY goes to bit 7, bit 0 to CY. -/
def execRar (s : State) : Host.Outcome State Fault Refusal :=
  .next ({ s with a := rotRightCarry s.a s.flags.cy }.setCy (s.a.getLsbD 0))

/-- CMA (R207): no flag. -/
def execCma (s : State) : Host.Outcome State Fault Refusal :=
  .next { s with a := ~~~s.a }

/-- STC (R208). -/
def execStc (s : State) : Host.Outcome State Fault Refusal :=
  .next (s.setCy true)

/-- CMC (R209). -/
def execCmc (s : State) : Host.Outcome State Fault Refusal :=
  .next (s.setCy (!s.flags.cy))

end Sys2Proof.Machine
end

