-- ==== Sys2Proof/Machine/Stack.lean ====
section
/-!
DEFINITION. The meanings of the stack instructions (44_stack.md).
A meaning runs on the state after the fetch: PC is already past the instruction's Bytes (R13, R104; log entry 8), or not
advanced at all when an interrupt injected it (R305).
-/

namespace Sys2Proof.Machine

/-- PUSH rp (R260). -/
def execPush (rp : RegPair) (s : State) : Host.Outcome State Fault Refusal :=
  .next (s.push16 (s.pair rp))

/-- PUSH PSW (R261): A high, the flags byte low. -/
def execPushPsw (s : State) : Host.Outcome State Fault Refusal :=
  .next (s.push16 s.psw)

/-- POP rp (R262). -/
def execPop (rp : RegPair) (s : State) : Host.Outcome State Fault Refusal :=
  .next (s.drop16.setPair rp s.top16)

/-- POP PSW (R263). -/
def execPopPsw (s : State) : Host.Outcome State Fault Refusal :=
  .next (s.drop16.setPsw s.top16)

/-- XTHL (R264): HL and the Word at SP change places, SP stays. -/
def execXthl (s : State) : Host.Outcome State Fault Refusal :=
  .next ((s.writeWord s.sp s.hl).setPair .hl s.top16)

/-- SPHL (R265). -/
def execSphl (s : State) : Host.Outcome State Fault Refusal :=
  .next { s with sp := s.hl }

end Sys2Proof.Machine
end

