-- ==== Sys2Proof/Machine/Unimplemented.lean ====
section
/-!
DEFINITION. The twelve unimplemented opcode values (R99, R300): each raises the one fault. The fetch does not move PC past them (R104),
so the fault's pc is the PC of the state they run on.
-/

namespace Sys2Proof.Machine

/-- The unimplemented value 0x08 (R99, R300). -/
def execUnimpl08 (s : State) : Host.Outcome State Fault Refusal :=
  raiseUnimplemented 0x08 s

/-- The unimplemented value 0x10 (R99, R300). -/
def execUnimpl10 (s : State) : Host.Outcome State Fault Refusal :=
  raiseUnimplemented 0x10 s

/-- The unimplemented value 0x18 (R99, R300). -/
def execUnimpl18 (s : State) : Host.Outcome State Fault Refusal :=
  raiseUnimplemented 0x18 s

/-- The unimplemented value 0x20 (R99, R300). -/
def execUnimpl20 (s : State) : Host.Outcome State Fault Refusal :=
  raiseUnimplemented 0x20 s

/-- The unimplemented value 0x28 (R99, R300). -/
def execUnimpl28 (s : State) : Host.Outcome State Fault Refusal :=
  raiseUnimplemented 0x28 s

/-- The unimplemented value 0x30 (R99, R300). -/
def execUnimpl30 (s : State) : Host.Outcome State Fault Refusal :=
  raiseUnimplemented 0x30 s

/-- The unimplemented value 0x38 (R99, R300). -/
def execUnimpl38 (s : State) : Host.Outcome State Fault Refusal :=
  raiseUnimplemented 0x38 s

/-- The unimplemented value 0xCB (R99, R300). -/
def execUnimplCB (s : State) : Host.Outcome State Fault Refusal :=
  raiseUnimplemented 0xCB s

/-- The unimplemented value 0xD9 (R99, R300). -/
def execUnimplD9 (s : State) : Host.Outcome State Fault Refusal :=
  raiseUnimplemented 0xD9 s

/-- The unimplemented value 0xDD (R99, R300). -/
def execUnimplDD (s : State) : Host.Outcome State Fault Refusal :=
  raiseUnimplemented 0xDD s

/-- The unimplemented value 0xED (R99, R300). -/
def execUnimplED (s : State) : Host.Outcome State Fault Refusal :=
  raiseUnimplemented 0xED s

/-- The unimplemented value 0xFD (R99, R300). -/
def execUnimplFD (s : State) : Host.Outcome State Fault Refusal :=
  raiseUnimplemented 0xFD s

end Sys2Proof.Machine
end

