-- ==== Sys2Proof/Machine/Interrupt.lean ====
section
/-!
DEFINITION. The three kinds of step (R308): an interrupt acceptance (R305), a held step (R309), and fetch, decode and execute (R104).
-/

namespace Sys2Proof.Machine

/-- The instruction an injected Byte selects when it is complete in one Byte; `none` for a Byte that selects an instruction
of length 2 or 3 (R305, R307). -/
def injectedInstr (v : Byte) : Option Instr :=
  match decodeOpcode v with
  | .one i => some i
  | .imm _ => none
  | .addr _ => none

/-- The acceptance action (R305). An unimplemented Byte faults with the current PC and PENDING kept (D20); a Byte that selects
an instruction of length 2 or 3 is refused (R307, U1); else the three writes of the acknowledgement, then the instruction
with PC not advanced. -/
def acceptInterrupt (v : Byte) (s : State) : Host.Outcome State Fault Refusal :=
  match injectedInstr v with
  | none => .refused (.injectedMultiByte v)
  | some i =>
    match i.unimplemented with
    | some _ => exec i s
    | none => exec i s.acknowledge

/-- The held step (R309, D18; log entry 7): nothing changes. -/
def heldStep (s : State) : Host.Outcome State Fault Refusal :=
  .next s

/-- Fetch, decode and execute at PC (R104). -/
def fetchStep (s : State) : Host.Outcome State Fault Refusal :=
  exec s.fetch (s.advancePc s.fetch)

/-- `Step()` (R308): an acceptable interrupt first, then the halt hold, then the instruction at PC (D19). -/
def stepCore (s : State) : Host.Outcome State Fault Refusal :=
  match s.acceptable with
  | some v => acceptInterrupt v s
  | none => if s.halted then heldStep s else fetchStep s

/-- The state with an instruction, numbered as spec/opcode_table.json numbers its bits, at PC, Running and with nothing
acceptable pending, so that the next step fetches it (log entry 16). -/
def State.placeFetch (s : State) (nbits w : Nat) : State :=
  { s.writeBytes s.pc (tableWordBytes nbits w) with
    halted := false
    pending := if s.inte then none else s.pending }

end Sys2Proof.Machine
end

