-- ==== Sys2Proof/Machine/Step.lean ====
section
/-!
DEFINITION. One step of the CORE (R308), and an instruction placed where the next step fetches.
-/

namespace Sys2Proof.Machine

/-- One step of the core (R8, R308). The outcome "held" is `next` with the state unchanged (log entry 7). -/
def step (s : State) : Host.Outcome State Fault Refusal :=
  stepCore s

/-- `s` with an instruction where the next step fetches it (log entry 16). -/
def State.withFetchWord (s : State) (nbits w : Nat) : State :=
  s.placeFetch nbits w

end Sys2Proof.Machine
end

