-- ==== Sys2Proof/Machine/Cycles.lean ====
section
/-!
DEFINITION. The cycle count a step returns (R347, R349) by the informative table of R350. It is an output beside the step: no
transition reads it and no state holds it (log entry 14).
-/

namespace Sys2Proof.Machine

/-- The table of R350. `taken` says whether the condition of a Ccc or Rcc held and matters for no other instruction. An
unimplemented value has no count. -/
def cycles (i : Instr) (taken : Bool) : Option Nat :=
  match i with
  | .nop | .ei | .di | .xchg | .rlc | .rrc | .ral | .rar | .daa | .cma | .stc | .cmc => some 4
  | .addR _ | .adcR _ | .subR _ | .sbbR _ | .anaR _ | .xraR _ | .oraR _ | .cmpR _ => some 4
  | .addM | .adcM | .subM | .sbbM | .anaM | .xraM | .oraM | .cmpM => some 7
  | .adi _ | .aci _ | .sui _ | .sbi _ | .ani _ | .xri _ | .ori _ | .cpi _ => some 7
  | .movRR _ _ | .inrR _ | .dcrR _ | .inx _ | .dcx _ | .pchl | .sphl => some 5
  | .movRM _ | .movMR _ | .mviR _ _ | .ldax _ | .stax _ | .hlt => some 7
  | .mviM _ | .inrM | .dcrM | .lxi _ _ | .dad _ | .pop _ | .popPsw => some 10
  | .jmp _ | .jcc _ _ | .ret | .inPort _ | .outPort _ => some 10
  | .push _ | .pushPsw | .rst _ => some 11
  | .lda _ | .sta _ => some 13
  | .lhld _ | .shld _ => some 16
  | .call _ => some 17
  | .xthl => some 18
  | .ccc _ _ => some (if taken then 17 else 11)
  | .rcc _ => some (if taken then 11 else 5)
  | .unimpl08 | .unimpl10 | .unimpl18 | .unimpl20 | .unimpl28 | .unimpl30 => none
  | .unimpl38 | .unimplCB | .unimplD9 | .unimplDD | .unimplED | .unimplFD => none

/-- Whether the condition of the instruction holds. -/
def conditionHolds (i : Instr) (f : Flags) : Bool :=
  match i with
  | .jcc cc _ | .ccc cc _ | .rcc cc => f.holds cc
  | _ => false

/-- The count of the step about to be made: that of the instruction executed, fetched or injected. A held and a faulting
step return a free value (U2). -/
def stepCycles (s : State) : Nat :=
  match s.acceptable with
  | some v =>
    match injectedInstr v with
    | some i => (cycles i (conditionHolds i s.flags)).getD (Config.openCycles 1)
    | none => Config.openCycles 1
  | none =>
    if s.halted then Config.openCycles 0
    else (cycles s.fetch (conditionHolds s.fetch s.flags)).getD (Config.openCycles 1)

end Sys2Proof.Machine
end

