-- ==== Sys2Proof/Machine/HostActions.lean ====
section
/-!
DEFINITION. What the host and the interrupt source may do between steps (R7, R79, R303, R320, R341), and runs in which such
actions and steps alternate. Launch is `State.launch`; inspection is reading the state; stopping is making no more steps (R351).
-/

namespace Sys2Proof.Machine

/-- An action between two steps (R320). -/
inductive HostAction where
  /-- The interrupt source delivers a request Byte (R303). -/
  | deliver (v : Byte)
  /-- An external reset (R341). -/
  | externalReset
  /-- Pokes of memory and registers, the test set-up of R79 and R317. -/
  | pokeByte (addr : Word) (v : Byte)
  | pokeReg (r : Reg) (v : Byte)
  | pokeFlags (f : Flags)
  | pokePc (w : Word)
  | pokeSp (w : Word)
  deriving DecidableEq, Repr

/-- `PENDING <- some v`, a newer request replacing an older one (R303, D16). -/
def State.deliver (s : State) (v : Byte) : State :=
  { s with pending := some v }

/-- The register state of R40 again, with memory as it is (R341, D5). The history of I/O transactions is not the core's to
clear and stays (log entry 18). -/
def State.externalReset (s : State) : State :=
  { State.launch s.params s.mem with io := s.io }

/-- The state after a host action. -/
def applyHost : HostAction → State → State
  | .deliver v, s => s.deliver v
  | .externalReset, s => s.externalReset
  | .pokeByte addr v, s => s.writeByte addr v
  | .pokeReg r v, s => s.setReg r v
  | .pokeFlags f, s => { s with flags := f }
  | .pokePc w, s => { s with pc := w }
  | .pokeSp w, s => { s with sp := w }

/-- What happens next in a run: the core steps, or the host acts between steps (R7). -/
inductive Event where
  | step
  | host (act : HostAction)
  deriving DecidableEq, Repr

/-- One event. -/
def applyEvent (e : Event) (s : State) : Host.Outcome State Fault Refusal :=
  match e with
  | .step => step s
  | .host act => .next (applyHost act s)

/-- A run through a list of events, ended by the first fault or refusal (R351). -/
def runEvents : List Event → State → Host.Outcome State Fault Refusal
  | [], s => .next s
  | e :: rest, s =>
    match applyEvent e s with
    | .next t => runEvents rest t
    | .fault r => .fault r
    | .refused r => .refused r

end Sys2Proof.Machine
end

