-- ==== Sys2Proof/Safety.lean ====
section
/-!
DEFINITION. The terms claims use: the invariant of the model, what a held state and a safe run are (R309, R351), the frame of an
instruction (what it may change and that nothing else does), and having an encoding.
-/

namespace Sys2Proof

open Machine

/-! ## Invariant and runs -/

/-- The invariant of the model: memory is in canonical form, so that equal memories are equal data. -/
def Inv (s : State) : Prop := Memory.wf s.mem = true

/-- The state is Halted with no acceptable interrupt: a step holds (R309), and a run has ended successfully (R351 a). -/
def Held (s : State) : Prop := s.halted = true ∧ s.acceptable = none

/-- A run through the events ends in no fault and no refusal. -/
def SafeRun (events : List Event) (s : State) : Prop := ∃ t, runEvents events s = .next t

/-- The Byte the next step is about to execute as an opcode: the accepted request, or the Byte at PC of a Running core;
none when the step holds (R300, R305, R308). -/
def nextOpcode (s : State) : Option Byte :=
  match s.acceptable with
  | some v => some v
  | none => if s.halted then none else some (s.readByte s.pc)

/-- The twelve unimplemented opcode values (R99). -/
def unimplementedOpcodes : List Byte :=
  [0x08, 0x10, 0x18, 0x20, 0x28, 0x30, 0x38, 0xCB, 0xD9, 0xDD, 0xED, 0xFD]

/-! ## Frames -/

/-- The names of the five flags (R27). -/
inductive FlagName where
  | s | z | ac | p | cy
  deriving DecidableEq, Repr

/-- The flag of that name. -/
def flagOf (f : Flags) : FlagName → Bool
  | .s => f.s
  | .z => f.z
  | .ac => f.ac
  | .p => f.p
  | .cy => f.cy

/-- All five flags. -/
def allFlags : List FlagName := [.s, .z, .ac, .p, .cy]

/-- What an instruction may write. Whatever is not named here is unchanged; `mem` lists the addresses stored to. -/
structure Writes where
  regs : List Reg := []
  flags : List FlagName := []
  mem : List Word := []
  pc : Bool := false
  sp : Bool := false
  inte : Bool := false
  halted : Bool := false
  pending : Bool := false
  io : Bool := false

/-- `t` differs from `s` at most in what `w` names: registers, flags, PC, SP, the control bits, the pending slot, the I/O
history, and every Byte of memory; the parameters never differ. -/
structure ChangesOnly (w : Writes) (s t : State) : Prop where
  regs : ∀ r, r ∉ w.regs → t.reg r = s.reg r
  flags : ∀ f, f ∉ w.flags → flagOf t.flags f = flagOf s.flags f
  mem : ∀ x, x ∉ w.mem → t.readByte x = s.readByte x
  pc : w.pc = false → t.pc = s.pc
  sp : w.sp = false → t.sp = s.sp
  inte : w.inte = false → t.inte = s.inte
  halted : w.halted = false → t.halted = s.halted
  pending : w.pending = false → t.pending = s.pending
  io : w.io = false → t.io = s.io
  params : t.params = s.params

/-- The registers a pair is made of; SP is made of none (R21, R24). -/
def pairRegs : RegPair → List Reg
  | .bc => [.b, .c]
  | .de => [.d, .e]
  | .hl => [.h, .l]
  | .sp => []

/-! ## Encodings -/

/-- The instruction is these Bytes: the encoder writes them, the decoder reads it back from them whatever follows, and its fetch
moves PC past exactly them. -/
def HasEncoding (i : Instr) (bytes : List Byte) : Prop :=
  encode i = bytes ∧ (∀ rest, decode (bytes ++ rest) = .ok (i, rest)) ∧ i.fetchAdvance = bytes.length

end Sys2Proof
end

