-- ==== Sys2Proof/Certificates/Slice0/Obligations.lean ====
section
/-!
DEFINITION. The statements for the provers. In a statement about `exec` the state is that after the fetch, so its PC is the
address of the next instruction (R13, R104); `ChangesOnly` is the frame, and each `∃ t, exec i s = .next t ∧ …` says that the
instruction completes in every state.
-/

open Sys2Proof Sys2Proof.Machine

/-! ## Terms the statements share -/

namespace Sys2Proof.Claims

/-- The number of 1 bits of a Byte (R29). -/
def ones (v : Byte) : Nat := ((List.range 8).filter fun k => v.getLsbD k).length

/-- S, Z and P say of the Byte what R29 and R30 say: bit 7, zero, an even number of 1 bits. -/
def FlagsOf (f : Flags) (r : Byte) : Prop :=
  (f.s = true ↔ 128 ≤ r.toNat) ∧ (f.z = true ↔ r.toNat = 0) ∧ (f.p = true ↔ ones r % 2 = 0)

/-- `A <- Add8(A, v, c)` (R150): the sum modulo 256, CY its carry, AC the carry out of bit 3, nothing else changed. -/
def AddsToA (i : Instr) (s : State) (v : Byte) (c : Bool) : Prop :=
  ∃ t, exec i s = .next t ∧ t.a.toNat = (s.a.toNat + v.toNat + bit c) % 256 ∧ FlagsOf t.flags t.a ∧
    (t.flags.cy = true ↔ 256 ≤ s.a.toNat + v.toNat + bit c) ∧
    (t.flags.ac = true ↔ 16 ≤ s.a.toNat % 16 + v.toNat % 16 + bit c) ∧
    ChangesOnly { regs := [.a], flags := allFlags } s t

/-- `A <- Sub8(A, v, b)` (R151, D9): the difference modulo 256, CY the borrow, AC set when bit 4 lends nothing. -/
def SubtractsFromA (i : Instr) (s : State) (v : Byte) (b : Bool) : Prop :=
  ∃ t, exec i s = .next t ∧ t.a.toNat = (s.a.toNat + 256 - (v.toNat + bit b)) % 256 ∧ FlagsOf t.flags t.a ∧
    (t.flags.cy = true ↔ s.a.toNat < v.toNat + bit b) ∧
    (t.flags.ac = true ↔ v.toNat % 16 + bit b ≤ s.a.toNat % 16) ∧
    ChangesOnly { regs := [.a], flags := allFlags } s t

/-- `discard Sub8(A, v, 0)` (R200, D9): the flags of the difference, Z exactly when A = v, CY exactly when A < v; A kept. -/
def ComparesWithA (i : Instr) (s : State) (v : Byte) : Prop :=
  ∃ t, exec i s = .next t ∧ FlagsOf t.flags (s.a - v) ∧ (t.flags.z = true ↔ s.a = v) ∧
    (t.flags.cy = true ↔ s.a.toNat < v.toNat) ∧ (t.flags.ac = true ↔ v.toNat % 16 ≤ s.a.toNat % 16) ∧
    ChangesOnly { flags := allFlags } s t

/-- `A <- r` by a logical instruction (R190): S, Z, P from the result, CY 0, AC as given, nothing else changed. -/
def LogicToA (i : Instr) (s : State) (r : Byte) (ac : Bool) : Prop :=
  ∃ t, exec i s = .next t ∧ t.a = r ∧ FlagsOf t.flags r ∧ t.flags.cy = false ∧ t.flags.ac = ac ∧
    ChangesOnly { regs := [.a], flags := allFlags } s t

/-- A rotate of A (R203 to R206): bit 0 and bit 7 or a neighbour as given, CY the bit shifted out, no other flag. -/
def RotatesA (i : Instr) (s : State) (newBit : Nat → Bool) (out : Bool) : Prop :=
  ∃ t, exec i s = .next t ∧ (∀ k, k < 8 → t.a.getLsbD k = newBit k) ∧ t.flags.cy = out ∧
    ChangesOnly { regs := [.a], flags := [.cy] } s t

/-- `Push16(PC); PC <- target` (R76, R233): SP down by 2, PC's Bytes at the new top, low Byte at the lower address. -/
def Calls (i : Instr) (s : State) (target : Word) : Prop :=
  ∃ t, exec i s = .next t ∧ t.pc = target ∧ t.sp = s.sp - 2 ∧ (t.readByte (s.sp - 2)).toNat = s.pc.toNat % 256 ∧
    (t.readByte (s.sp - 1)).toNat = s.pc.toNat / 256 ∧
    ChangesOnly { pc := true, sp := true, mem := [s.sp - 2, s.sp - 1] } s t

/-- `PC <- Pop16()` (R77, R235): PC from the two Bytes at SP, SP up by 2, memory as it was. -/
def Returns (i : Instr) (s : State) : Prop :=
  ∃ t, exec i s = .next t ∧ t.pc.toNat = (s.readByte (s.sp + 1)).toNat * 256 + (s.readByte s.sp).toNat ∧ t.sp = s.sp + 2 ∧
    ChangesOnly { pc := true, sp := true } s t

/-- A push of the Bytes `hi` and `lo` (R76): SP down by 2, `lo` at the new SP, `hi` above it, nothing else changed. -/
def Pushes (i : Instr) (s : State) (hi lo : Byte) : Prop :=
  ∃ t, exec i s = .next t ∧ t.sp = s.sp - 2 ∧ t.readByte (s.sp - 2) = lo ∧ t.readByte (s.sp - 1) = hi ∧
    ChangesOnly { sp := true, mem := [s.sp - 2, s.sp - 1] } s t

/-- A pop into two registers (R77): the low one from SP, the high one from SP + 1, SP up by 2, memory as it was. -/
def Pops (i : Instr) (s : State) (hi lo : Reg) : Prop :=
  ∃ t, exec i s = .next t ∧ t.reg lo = s.readByte s.sp ∧ t.reg hi = s.readByte (s.sp + 1) ∧ t.sp = s.sp + 2 ∧
    ChangesOnly { regs := [hi, lo], sp := true } s t

/-- The two decimal digits of a number below 100, one in each nibble. -/
def bcd (n : Nat) : Byte := BitVec.ofNat 8 (n / 10 * 16 + n % 10)

/-- From a state whose A is a BCD Byte, `i` followed by DAA leaves the BCD sum with its decimal carry. -/
def DecimalSum (i : Instr) (s : State) (x y : Nat) : Prop :=
  ∃ t u, exec i s = .next t ∧ exec .daa t = .next u ∧ u.a = bcd ((x + y) % 100) ∧ (u.flags.cy = true ↔ 100 ≤ x + y)

end Sys2Proof.Claims

open Sys2Proof.Claims

/-! ## Data transfer (40_data_transfer.md) -/

/-- R121. -/
def Obligations.MovCopiesRegister : Prop :=
  ∀ (dst src : Reg) (s : State),
    HasEncoding (.movRR dst src) [0b01#2 ++ dst.code ++ src.code] ∧
    ∃ t, exec (.movRR dst src) s = .next t ∧ t.reg dst = s.reg src ∧ ChangesOnly { regs := [dst] } s t

/-- R122, R123: M is the Byte at the old HL. -/
def Obligations.MovThroughMemoryOperand : Prop :=
  (∀ (dst : Reg) (s : State),
    HasEncoding (.movRM dst) [0b01#2 ++ dst.code ++ 0b110#3] ∧
    ∃ t, exec (.movRM dst) s = .next t ∧ t.reg dst = s.readByte s.hl ∧ ChangesOnly { regs := [dst] } s t) ∧
  (∀ (src : Reg) (s : State),
    HasEncoding (.movMR src) [0b01110#5 ++ src.code] ∧
    ∃ t, exec (.movMR src) s = .next t ∧ t.readByte s.hl = s.reg src ∧ ChangesOnly { mem := [s.hl] } s t)

/-- R124, R125. -/
def Obligations.MviWritesImmediate : Prop :=
  (∀ (dst : Reg) (d8 : Byte) (s : State),
    HasEncoding (.mviR dst d8) [0b00#2 ++ dst.code ++ 0b110#3, d8] ∧
    ∃ t, exec (.mviR dst d8) s = .next t ∧ t.reg dst = d8 ∧ ChangesOnly { regs := [dst] } s t) ∧
  (∀ (d8 : Byte) (s : State),
    HasEncoding (.mviM d8) [0b00110110#8, d8] ∧
    ∃ t, exec (.mviM d8) s = .next t ∧ t.readByte s.hl = d8 ∧ ChangesOnly { mem := [s.hl] } s t)

/-- R126: byte 2 goes to the low register and byte 3 to the high register; SP takes the whole Word. -/
def Obligations.LxiLoadsPair : Prop :=
  ∀ (lo hi : Byte) (s : State),
    (∀ rp, HasEncoding (.lxi rp (joinBytes hi lo)) [0b00#2 ++ rp.code ++ 0b0001#4, lo, hi]) ∧
    (∃ t, exec (.lxi .bc (joinBytes hi lo)) s = .next t ∧ t.b = hi ∧ t.c = lo ∧ ChangesOnly { regs := [.b, .c] } s t) ∧
    (∃ t, exec (.lxi .de (joinBytes hi lo)) s = .next t ∧ t.d = hi ∧ t.e = lo ∧ ChangesOnly { regs := [.d, .e] } s t) ∧
    (∃ t, exec (.lxi .hl (joinBytes hi lo)) s = .next t ∧ t.h = hi ∧ t.l = lo ∧ ChangesOnly { regs := [.h, .l] } s t) ∧
    (∃ t, exec (.lxi .sp (joinBytes hi lo)) s = .next t ∧ t.sp.toNat = hi.toNat * 256 + lo.toNat ∧
      ChangesOnly { sp := true } s t)

/-- R127, R128. -/
def Obligations.DirectAccumulatorTransfer : Prop :=
  ∀ (a16 : Word) (s : State),
    HasEncoding (.lda a16) [0b00111010#8, loByte a16, hiByte a16] ∧
    (∃ t, exec (.lda a16) s = .next t ∧ t.a = s.readByte a16 ∧ ChangesOnly { regs := [.a] } s t) ∧
    HasEncoding (.sta a16) [0b00110010#8, loByte a16, hiByte a16] ∧
    ∃ t, exec (.sta a16) s = .next t ∧ t.readByte a16 = s.a ∧ ChangesOnly { mem := [a16] } s t

/-- R129, R130: the second Byte is at a16 + 1 modulo 65536. -/
def Obligations.DirectPairTransfer : Prop :=
  ∀ (a16 : Word) (s : State),
    HasEncoding (.lhld a16) [0b00101010#8, loByte a16, hiByte a16] ∧
    (∃ t, exec (.lhld a16) s = .next t ∧ t.l = s.readByte a16 ∧ t.h = s.readByte (a16 + 1) ∧
      ChangesOnly { regs := [.h, .l] } s t) ∧
    HasEncoding (.shld a16) [0b00100010#8, loByte a16, hiByte a16] ∧
    ∃ t, exec (.shld a16) s = .next t ∧ t.readByte a16 = s.l ∧ t.readByte (a16 + 1) = s.h ∧
      ChangesOnly { mem := [a16, a16 + 1] } s t

/-- R131, R132. -/
def Obligations.IndirectAccumulatorTransfer : Prop :=
  ∀ s : State,
    HasEncoding (.ldax .bc) [0b00001010#8] ∧ HasEncoding (.ldax .de) [0b00011010#8] ∧
    (∃ t, exec (.ldax .bc) s = .next t ∧ t.a = s.readByte (joinBytes s.b s.c) ∧ ChangesOnly { regs := [.a] } s t) ∧
    (∃ t, exec (.ldax .de) s = .next t ∧ t.a = s.readByte (joinBytes s.d s.e) ∧ ChangesOnly { regs := [.a] } s t) ∧
    HasEncoding (.stax .bc) [0b00000010#8] ∧ HasEncoding (.stax .de) [0b00010010#8] ∧
    (∃ t, exec (.stax .bc) s = .next t ∧ t.readByte (joinBytes s.b s.c) = s.a ∧
      ChangesOnly { mem := [joinBytes s.b s.c] } s t) ∧
    ∃ t, exec (.stax .de) s = .next t ∧ t.readByte (joinBytes s.d s.e) = s.a ∧
      ChangesOnly { mem := [joinBytes s.d s.e] } s t

/-- R133: the pairs change places, and two XCHG in a row restore both. -/
def Obligations.XchgExchangesPairs : Prop :=
  ∀ s : State, HasEncoding .xchg [0b11101011#8] ∧
    ∃ t, exec .xchg s = .next t ∧ t.h = s.d ∧ t.l = s.e ∧ t.d = s.h ∧ t.e = s.l ∧
      ChangesOnly { regs := [.d, .e, .h, .l] } s t ∧ exec .xchg t = .next s

/-! ## Arithmetic (41_arithmetic.md) -/

/-- R150, R153 to R155. -/
def Obligations.AddWritesSumAndFlags : Prop :=
  ∀ s : State,
    (∀ r, HasEncoding (.addR r) [0b10000#5 ++ r.code] ∧ AddsToA (.addR r) s (s.reg r) false) ∧
    (HasEncoding .addM [0b10000110#8] ∧ AddsToA .addM s (s.readByte s.hl) false) ∧
    ∀ d8, HasEncoding (.adi d8) [0b11000110#8, d8] ∧ AddsToA (.adi d8) s d8 false

/-- R150, R156 to R158: the CY added is the CY before. -/
def Obligations.AdcAddsCarryIn : Prop :=
  ∀ s : State,
    (∀ r, HasEncoding (.adcR r) [0b10001#5 ++ r.code] ∧ AddsToA (.adcR r) s (s.reg r) s.flags.cy) ∧
    (HasEncoding .adcM [0b10001110#8] ∧ AddsToA .adcM s (s.readByte s.hl) s.flags.cy) ∧
    ∀ d8, HasEncoding (.aci d8) [0b11001110#8, d8] ∧ AddsToA (.aci d8) s d8 s.flags.cy

/-- R151, R159 to R161. The senses of CY and AC are the spec's own decision D9. -/
def Obligations.SubWritesDifferenceAndFlags : Prop :=
  ∀ s : State,
    (∀ r, HasEncoding (.subR r) [0b10010#5 ++ r.code] ∧ SubtractsFromA (.subR r) s (s.reg r) false) ∧
    (HasEncoding .subM [0b10010110#8] ∧ SubtractsFromA .subM s (s.readByte s.hl) false) ∧
    ∀ d8, HasEncoding (.sui d8) [0b11010110#8, d8] ∧ SubtractsFromA (.sui d8) s d8 false

/-- R151, R162 to R164. The senses of CY and AC are the spec's own decision D9. -/
def Obligations.SbbSubtractsBorrowIn : Prop :=
  ∀ s : State,
    (∀ r, HasEncoding (.sbbR r) [0b10011#5 ++ r.code] ∧ SubtractsFromA (.sbbR r) s (s.reg r) s.flags.cy) ∧
    (HasEncoding .sbbM [0b10011110#8] ∧ SubtractsFromA .sbbM s (s.readByte s.hl) s.flags.cy) ∧
    ∀ d8, HasEncoding (.sbi d8) [0b11011110#8, d8] ∧ SubtractsFromA (.sbi d8) s d8 s.flags.cy

/-- R165, R166: S, Z, AC and P, never CY. -/
def Obligations.InrIncrementsKeepingCarry : Prop :=
  (∀ (r : Reg) (s : State),
    HasEncoding (.inrR r) [0b00#2 ++ r.code ++ 0b100#3] ∧
    ∃ t, exec (.inrR r) s = .next t ∧ (t.reg r).toNat = ((s.reg r).toNat + 1) % 256 ∧ FlagsOf t.flags (t.reg r) ∧
      (t.flags.ac = true ↔ (s.reg r).toNat % 16 = 15) ∧ ChangesOnly { regs := [r], flags := [.s, .z, .ac, .p] } s t) ∧
  ∀ s : State, HasEncoding .inrM [0b00110100#8] ∧
    ∃ t, exec .inrM s = .next t ∧ (t.readByte s.hl).toNat = ((s.readByte s.hl).toNat + 1) % 256 ∧
      FlagsOf t.flags (t.readByte s.hl) ∧ (t.flags.ac = true ↔ (s.readByte s.hl).toNat % 16 = 15) ∧
      ChangesOnly { mem := [s.hl], flags := [.s, .z, .ac, .p] } s t

/-- R167, R168: S, Z, AC and P, never CY. The sense of AC is the spec's own decision D9. -/
def Obligations.DcrDecrementsKeepingCarry : Prop :=
  (∀ (r : Reg) (s : State),
    HasEncoding (.dcrR r) [0b00#2 ++ r.code ++ 0b101#3] ∧
    ∃ t, exec (.dcrR r) s = .next t ∧ (t.reg r).toNat = ((s.reg r).toNat + 255) % 256 ∧ FlagsOf t.flags (t.reg r) ∧
      (t.flags.ac = true ↔ (s.reg r).toNat % 16 ≠ 0) ∧ ChangesOnly { regs := [r], flags := [.s, .z, .ac, .p] } s t) ∧
  ∀ s : State, HasEncoding .dcrM [0b00110101#8] ∧
    ∃ t, exec .dcrM s = .next t ∧ (t.readByte s.hl).toNat = ((s.readByte s.hl).toNat + 255) % 256 ∧
      FlagsOf t.flags (t.readByte s.hl) ∧ (t.flags.ac = true ↔ (s.readByte s.hl).toNat % 16 ≠ 0) ∧
      ChangesOnly { mem := [s.hl], flags := [.s, .z, .ac, .p] } s t

/-- R169, R170: modulo 65536, no flag. -/
def Obligations.InxDcxWrapWithoutFlags : Prop :=
  ∀ (rp : RegPair) (s : State),
    HasEncoding (.inx rp) [0b00#2 ++ rp.code ++ 0b0011#4] ∧
    (∃ t, exec (.inx rp) s = .next t ∧ (t.pair rp).toNat = ((s.pair rp).toNat + 1) % 65536 ∧
      ChangesOnly { regs := pairRegs rp, sp := decide (rp = .sp) } s t) ∧
    HasEncoding (.dcx rp) [0b00#2 ++ rp.code ++ 0b1011#4] ∧
    ∃ t, exec (.dcx rp) s = .next t ∧ (t.pair rp).toNat = ((s.pair rp).toNat + 65535) % 65536 ∧
      ChangesOnly { regs := pairRegs rp, sp := decide (rp = .sp) } s t

/-- R171: CY from the 17th bit of the sum, on every DAD; no other flag. -/
def Obligations.DadAddsPairToHl : Prop :=
  ∀ (rp : RegPair) (s : State), HasEncoding (.dad rp) [0b00#2 ++ rp.code ++ 0b1001#4] ∧
    ∃ t, exec (.dad rp) s = .next t ∧ t.hl.toNat = (s.hl.toNat + (s.pair rp).toNat) % 65536 ∧
      (t.flags.cy = true ↔ 65536 ≤ s.hl.toNat + (s.pair rp).toNat) ∧ ChangesOnly { regs := [.h, .l], flags := [.cy] } s t

/-- R172 in its closed form, which the spec derives; the readings C1 and C2 are its own decision D10. -/
def Obligations.DaaClosedForm : Prop :=
  ∀ s : State, HasEncoding .daa [0b00100111#8] ∧
    ∃ t, exec .daa s = .next t ∧
      (let low := s.a.toNat % 16 > 9 ∨ s.flags.ac = true
       let high := s.a.toNat / 16 > 9 ∨ s.flags.cy = true ∨ (s.a.toNat / 16 ≥ 9 ∧ s.a.toNat % 16 > 9)
       t.a.toNat = (s.a.toNat + (if low then 6 else 0) + (if high then 0x60 else 0)) % 256 ∧
         (t.flags.cy = true ↔ high) ∧ (t.flags.ac = true ↔ low ∧ s.a.toNat % 16 + 6 > 15)) ∧
      FlagsOf t.flags t.a ∧ ChangesOnly { regs := [.a], flags := allFlags } s t

/-- The round trip S3 of 95_test_vectors.md: an addition of two BCD Bytes and then DAA give the BCD sum, CY exactly when the true
sum exceeds 99. -/
def Obligations.AddThenDaaIsDecimalAddition : Prop :=
  ∀ (s : State) (x y : Nat), x < 100 → y < 100 → s.a = bcd x →
    DecimalSum (.adi (bcd y)) s x y ∧ (∀ r, s.reg r = bcd y → DecimalSum (.addR r) s x y) ∧
      (s.readByte s.hl = bcd y → DecimalSum .addM s x y)

/-! ## Logical, compare, rotate, carry (42_logical.md) -/

/-- R190 to R193. That AC is bit 3 of the OR of the operands is the spec's own decision D8 (log entry 13). -/
def Obligations.AnaAndsIntoA : Prop :=
  ∀ s : State,
    (∀ r, HasEncoding (.anaR r) [0b10100#5 ++ r.code] ∧
      LogicToA (.anaR r) s (s.a &&& s.reg r) (s.a.getLsbD 3 || (s.reg r).getLsbD 3)) ∧
    (HasEncoding .anaM [0b10100110#8] ∧
      LogicToA .anaM s (s.a &&& s.readByte s.hl) (s.a.getLsbD 3 || (s.readByte s.hl).getLsbD 3)) ∧
    ∀ d8, HasEncoding (.ani d8) [0b11100110#8, d8] ∧ LogicToA (.ani d8) s (s.a &&& d8) (s.a.getLsbD 3 || d8.getLsbD 3)

/-- R194 to R199. -/
def Obligations.XraOraClearCarries : Prop :=
  ∀ s : State,
    (∀ r, HasEncoding (.xraR r) [0b10101#5 ++ r.code] ∧ LogicToA (.xraR r) s (s.a ^^^ s.reg r) false) ∧
    (HasEncoding .xraM [0b10101110#8] ∧ LogicToA .xraM s (s.a ^^^ s.readByte s.hl) false) ∧
    (∀ d8, HasEncoding (.xri d8) [0b11101110#8, d8] ∧ LogicToA (.xri d8) s (s.a ^^^ d8) false) ∧
    (∀ r, HasEncoding (.oraR r) [0b10110#5 ++ r.code] ∧ LogicToA (.oraR r) s (s.a ||| s.reg r) false) ∧
    (HasEncoding .oraM [0b10110110#8] ∧ LogicToA .oraM s (s.a ||| s.readByte s.hl) false) ∧
    ∀ d8, HasEncoding (.ori d8) [0b11110110#8, d8] ∧ LogicToA (.ori d8) s (s.a ||| d8) false

/-- R200 to R202. The senses of CY and AC are the spec's own decision D9. -/
def Obligations.CmpComparesUnsigned : Prop :=
  ∀ s : State,
    (∀ r, HasEncoding (.cmpR r) [0b10111#5 ++ r.code] ∧ ComparesWithA (.cmpR r) s (s.reg r)) ∧
    (HasEncoding .cmpM [0b10111110#8] ∧ ComparesWithA .cmpM s (s.readByte s.hl)) ∧
    ∀ d8, HasEncoding (.cpi d8) [0b11111110#8, d8] ∧ ComparesWithA (.cpi d8) s d8

/-- R203 to R206, bit by bit. -/
def Obligations.RotatesShiftOneBit : Prop :=
  ∀ s : State,
    HasEncoding .rlc [0b00000111#8] ∧
    RotatesA .rlc s (fun k => if k = 0 then s.a.getLsbD 7 else s.a.getLsbD (k - 1)) (s.a.getLsbD 7) ∧
    HasEncoding .rrc [0b00001111#8] ∧
    RotatesA .rrc s (fun k => if k = 7 then s.a.getLsbD 0 else s.a.getLsbD (k + 1)) (s.a.getLsbD 0) ∧
    HasEncoding .ral [0b00010111#8] ∧
    RotatesA .ral s (fun k => if k = 0 then s.flags.cy else s.a.getLsbD (k - 1)) (s.a.getLsbD 7) ∧
    HasEncoding .rar [0b00011111#8] ∧
    RotatesA .rar s (fun k => if k = 7 then s.flags.cy else s.a.getLsbD (k + 1)) (s.a.getLsbD 0)

/-- R207 to R209. -/
def Obligations.ComplementAndCarryInstructions : Prop :=
  ∀ s : State,
    HasEncoding .cma [0b00101111#8] ∧
    (∃ t, exec .cma s = .next t ∧ t.a.toNat = 255 - s.a.toNat ∧ ChangesOnly { regs := [.a] } s t) ∧
    HasEncoding .stc [0b00110111#8] ∧
    (∃ t, exec .stc s = .next t ∧ t.flags.cy = true ∧ ChangesOnly { flags := [.cy] } s t) ∧
    HasEncoding .cmc [0b00111111#8] ∧
    ∃ t, exec .cmc s = .next t ∧ t.flags.cy = !s.flags.cy ∧ ChangesOnly { flags := [.cy] } s t

/-! ## Branch (43_branch.md) -/

/-- R230: codes and conditions. -/
def Obligations.ConditionsTestOneFlag : Prop :=
  ∀ (f : Flags) (cc : Cond), f.holds cc = true ↔
    (cc.code = 0 ∧ f.z = false) ∨ (cc.code = 1 ∧ f.z = true) ∨ (cc.code = 2 ∧ f.cy = false) ∨ (cc.code = 3 ∧ f.cy = true) ∨
      (cc.code = 4 ∧ f.p = false) ∨ (cc.code = 5 ∧ f.p = true) ∨ (cc.code = 6 ∧ f.s = false) ∨ (cc.code = 7 ∧ f.s = true)

/-- R231, R232, R237. -/
def Obligations.JumpsWriteOnlyPc : Prop :=
  ∀ (a16 : Word) (cc : Cond) (s : State),
    HasEncoding (.jmp a16) [0b11000011#8, loByte a16, hiByte a16] ∧
    (∃ t, exec (.jmp a16) s = .next t ∧ t.pc = a16 ∧ ChangesOnly { pc := true } s t) ∧
    HasEncoding (.jcc cc a16) [0b11#2 ++ cc.code ++ 0b010#3, loByte a16, hiByte a16] ∧
    (∃ t, exec (.jcc cc a16) s = .next t ∧ t.pc = (if s.flags.holds cc = true then a16 else s.pc) ∧
      ChangesOnly { pc := true } s t) ∧
    HasEncoding .pchl [0b11101001#8] ∧
    ∃ t, exec .pchl s = .next t ∧ t.pc.toNat = s.h.toNat * 256 + s.l.toNat ∧ ChangesOnly { pc := true } s t

/-- R233. That the Word pushed is the address of the next instruction is the spec's own inference. -/
def Obligations.CallPushesReturnAddress : Prop :=
  ∀ (a16 : Word) (s : State), HasEncoding (.call a16) [0b11001101#8, loByte a16, hiByte a16] ∧ Calls (.call a16) s a16

/-- R234, R238: a call taken on a condition, and the one-Byte calls to 8 * n. -/
def Obligations.ConditionalCallAndRestart : Prop :=
  (∀ (cc : Cond) (a16 : Word) (s : State),
    HasEncoding (.ccc cc a16) [0b11#2 ++ cc.code ++ 0b100#3, loByte a16, hiByte a16] ∧
    (s.flags.holds cc = true → Calls (.ccc cc a16) s a16) ∧ (s.flags.holds cc = false → exec (.ccc cc a16) s = .next s)) ∧
  ∀ (n : BitVec 3) (s : State), HasEncoding (.rst n) [0b11#2 ++ n ++ 0b111#3] ∧
    Calls (.rst n) s (BitVec.ofNat 16 (8 * n.toNat))

/-- R235, R236. -/
def Obligations.ReturnsPopPc : Prop :=
  (∀ s : State, HasEncoding .ret [0b11001001#8] ∧ Returns .ret s) ∧
  ∀ (cc : Cond) (s : State), HasEncoding (.rcc cc) [0b11#2 ++ cc.code ++ 0b000#3] ∧
    (s.flags.holds cc = true → Returns (.rcc cc) s) ∧ (s.flags.holds cc = false → exec (.rcc cc) s = .next s)

/-- A call followed by a return comes back: PC and SP are those before, and only the two stack Bytes differ. It holds wherever
the code between them left PC, if SP and memory are as the call left them. -/
def Obligations.ReturnUndoesCall : Prop :=
  ∀ (a16 w : Word) (s : State), ∃ t u, exec (.call a16) s = .next t ∧ exec .ret { t with pc := w } = .next u ∧
    ChangesOnly { mem := [s.sp - 2, s.sp - 1] } s u

/-! ## Stack (44_stack.md) -/

/-- R260, R262. -/
def Obligations.PushPopMovePairs : Prop :=
  ∀ s : State,
    HasEncoding (.push .bc) [0xC5] ∧ HasEncoding (.push .de) [0xD5] ∧ HasEncoding (.push .hl) [0xE5] ∧
    Pushes (.push .bc) s s.b s.c ∧ Pushes (.push .de) s s.d s.e ∧ Pushes (.push .hl) s s.h s.l ∧
    HasEncoding (.pop .bc) [0xC1] ∧ HasEncoding (.pop .de) [0xD1] ∧ HasEncoding (.pop .hl) [0xE1] ∧
    Pops (.pop .bc) s .b .c ∧ Pops (.pop .de) s .d .e ∧ Pops (.pop .hl) s .h .l

/-- R28, R261, R263. The layout of the flags byte is the spec's own decision D6, that bits 5, 3 and 1 are ignored D7. -/
def Obligations.PswPacksFlagsByte : Prop :=
  ∀ s : State,
    HasEncoding .pushPsw [0b11110101#8] ∧
    (∃ fb : Byte, Pushes .pushPsw s s.a fb ∧ fb.getLsbD 7 = s.flags.s ∧ fb.getLsbD 6 = s.flags.z ∧ fb.getLsbD 5 = false ∧
      fb.getLsbD 4 = s.flags.ac ∧ fb.getLsbD 3 = false ∧ fb.getLsbD 2 = s.flags.p ∧ fb.getLsbD 1 = true ∧
      fb.getLsbD 0 = s.flags.cy) ∧
    HasEncoding .popPsw [0b11110001#8] ∧
    ∃ t, exec .popPsw s = .next t ∧ t.a = s.readByte (s.sp + 1) ∧ t.flags.s = (s.readByte s.sp).getLsbD 7 ∧
      t.flags.z = (s.readByte s.sp).getLsbD 6 ∧ t.flags.ac = (s.readByte s.sp).getLsbD 4 ∧
      t.flags.p = (s.readByte s.sp).getLsbD 2 ∧ t.flags.cy = (s.readByte s.sp).getLsbD 0 ∧ t.sp = s.sp + 2 ∧
      ChangesOnly { regs := [.a], flags := allFlags, sp := true } s t

/-- R264, R265. -/
def Obligations.XthlSphl : Prop :=
  ∀ s : State,
    HasEncoding .xthl [0b11100011#8] ∧
    (∃ t, exec .xthl s = .next t ∧ t.l = s.readByte s.sp ∧ t.h = s.readByte (s.sp + 1) ∧ t.readByte s.sp = s.l ∧
      t.readByte (s.sp + 1) = s.h ∧ ChangesOnly { regs := [.h, .l], mem := [s.sp, s.sp + 1] } s t) ∧
    HasEncoding .sphl [0b11111001#8] ∧
    ∃ t, exec .sphl s = .next t ∧ t.sp.toNat = s.h.toNat * 256 + s.l.toNat ∧ ChangesOnly { sp := true } s t

/-- R266, the law of stack discipline the spec derives: a push and a pop of the same pair leave everything as it was but the
two Bytes below SP, for BC, DE, HL and PSW. -/
def Obligations.PopUndoesPush : Prop :=
  (∀ (rp : RegPair) (s : State), rp ≠ .sp → ∃ t u, exec (.push rp) s = .next t ∧ exec (.pop rp) t = .next u ∧
    ChangesOnly { mem := [s.sp - 2, s.sp - 1] } s u) ∧
  ∀ s : State, ∃ t u, exec .pushPsw s = .next t ∧ exec .popPsw t = .next u ∧
    ChangesOnly { mem := [s.sp - 2, s.sp - 1] } s u

/-! ## Input/output and control (45_io_control.md) -/

/-- R280, R281, R286. The Byte an IN receives is the free value `Config.ioIn` (log entry 5): the statement holds whatever it is. -/
def Obligations.InOutPerformOneTransaction : Prop :=
  ∀ (port : Byte) (s : State),
    HasEncoding (.inPort port) [0b11011011#8, port] ∧
    (∃ t, exec (.inPort port) s = .next t ∧ t.a = Config.ioIn s.io port ∧ t.io = s.io ++ [.input port t.a] ∧
      ChangesOnly { regs := [.a], io := true } s t) ∧
    HasEncoding (.outPort port) [0b11010011#8, port] ∧
    ∃ t, exec (.outPort port) s = .next t ∧ t.io = s.io ++ [.output port s.a] ∧ ChangesOnly { io := true } s t

/-- R283 (in force at the next step), R284, R285. -/
def Obligations.DiHltNop : Prop :=
  ∀ s : State,
    HasEncoding .di [0b11110011#8] ∧
    (∃ t, exec .di s = .next t ∧ t.inte = false ∧ t.acceptable = none ∧ ChangesOnly { inte := true } s t) ∧
    HasEncoding .hlt [0b01110110#8] ∧ (∃ t, exec .hlt s = .next t ∧ t.halted = true ∧ ChangesOnly { halted := true } s t) ∧
    HasEncoding .nop [0b00000000#8] ∧ ∃ t, exec .nop s = .next t ∧ ChangesOnly {} s t

/-- R282: INTE is set and in force at once, so that a request pending over an EI is acceptable at the very next step. That is
the spec's own decision D17. -/
def Obligations.EiTakesEffectAtOnce : Prop :=
  ∀ s : State, HasEncoding .ei [0b11111011#8] ∧
    ∃ t, exec .ei s = .next t ∧ t.inte = true ∧ t.acceptable = s.pending ∧ ChangesOnly { inte := true } s t

/-! ## The fault (60_exceptions.md) -/

/-- R300, for the twelve instructions and for the step that fetches one: the opcode and the PC it was fetched at, and no state. Which
values are the twelve is the spec's own decision D12. -/
def Obligations.UnimplementedOpcodeFaults : Prop :=
  (∀ p ∈ [(Instr.unimpl08, (0x08 : Byte)), (.unimpl10, 0x10), (.unimpl18, 0x18), (.unimpl20, 0x20), (.unimpl28, 0x28),
      (.unimpl30, 0x30), (.unimpl38, 0x38), (.unimplCB, 0xCB), (.unimplD9, 0xD9), (.unimplDD, 0xDD), (.unimplED, 0xED),
      (.unimplFD, 0xFD)],
    ∀ s : State, exec p.1 s = .fault (.unimplementedOpcode p.2 s.pc) ∧ encode p.1 = [p.2] ∧ p.1.fetchAdvance = 0 ∧
      ∀ rest, decode (p.2 :: rest) = .ok (p.1, rest)) ∧
  ∀ s : State, s.acceptable = none → s.halted = false → s.readByte s.pc ∈ unimplementedOpcodes →
    step s = .fault (.unimplementedOpcode (s.readByte s.pc) s.pc)

/-- R302, with R305 for an injected Byte (the spec's own decision D20): a step faults exactly when the Byte about to be executed
is one of the twelve, and the fault carries that Byte and the current PC. -/
def Obligations.OnlyUnimplementedOpcodesFault : Prop :=
  ∀ (s : State) (opcode : Byte) (pc : Word), step s = .fault (.unimplementedOpcode opcode pc) ↔
    nextOpcode s = some opcode ∧ opcode ∈ unimplementedOpcodes ∧ pc = s.pc

/-! ## Interrupts and halt (60_exceptions.md) -/

/-- R307, the spec's own decision D15: a step is refused exactly when it accepts a Byte whose instruction needs operand Bytes. -/
def Obligations.OnlyInjectedMultiByteRefused : Prop :=
  ∀ (s : State) (r : Refusal), step s = .refused r ↔
    ∃ v, s.inte = true ∧ s.pending = some v ∧ decode [v] = .error (.truncated v) ∧ r = .injectedMultiByte v

/-- R305 for every one-Byte instruction an interrupt may inject (decisions D13, D14): PENDING none, HALTED 0, INTE by the
parameter, and the instruction with PC not advanced. -/
def Obligations.AcceptanceExecutesInjectedInstruction : Prop :=
  ∀ (s : State) (v : Byte) (i : Instr), s.inte = true → s.pending = some v → decode [v] = .ok (i, []) →
    v ∉ unimplementedOpcodes →
    step s = exec i { s with pending := none, halted := false, inte := !s.params.intAckClearsInte }

/-- R305 and R310 for RST n (decisions D13, D14): the PC saved is that of the next instruction of the interrupted program, Running
or Halted, and control goes to 8 * n. -/
def Obligations.InterruptRestartSavesPc : Prop :=
  ∀ (s : State) (n : BitVec 3), s.inte = true → s.pending = some (0b11#2 ++ n ++ 0b111#3) →
    ∃ t, step s = .next t ∧ t.pc.toNat = 8 * n.toNat ∧ t.sp = s.sp - 2 ∧
      (t.readByte (s.sp - 2)).toNat = s.pc.toNat % 256 ∧ (t.readByte (s.sp - 1)).toNat = s.pc.toNat / 256 ∧
      t.pending = none ∧ t.halted = false ∧ t.inte = !s.params.intAckClearsInte ∧
      ChangesOnly { pc := true, sp := true, pending := true, halted := true, inte := true,
                    mem := [s.sp - 2, s.sp - 1] } s t

/-- R309: a core Halted with no acceptable request stays as it is, for any number of steps. The outcome "held" is a next state
with nothing changed (decision D18; log entry 7). -/
def Obligations.HeldForEver : Prop :=
  ∀ (n : Nat) (s : State), s.halted = true → (s.pending = none ∨ s.inte = false) →
    runEvents (List.replicate n .step) s = .next s

/-- R34, R319: a step enters Halted only by executing HLT, and leaves it only by accepting a request with INTE set. -/
def Obligations.HaltMachineTransitions : Prop :=
  ∀ s t : State, step s = .next t →
    (s.halted = false → t.halted = true → nextOpcode s = some 0x76) ∧
      (s.halted = true → t.halted = false → s.inte = true ∧ ∃ v, s.pending = some v ∧ v ≠ 0x76)

/-- R33, R306 (decisions D14, D16): what a step does to INTE and to PENDING. EI and DI, fetched or injected, write INTE; an acceptance
clears it by the parameter and empties the slot; nothing else touches either. -/
def Obligations.InteAndPendingWriters : Prop :=
  ∀ s t : State, step s = .next t →
    t.pending = (if s.acceptable.isSome then none else s.pending) ∧
      t.inte = (if nextOpcode s = some 0xFB then true else if nextOpcode s = some 0xF3 then false
        else if s.acceptable.isSome then s.inte && !s.params.intAckClearsInte else s.inte)

/-- R286 (decision D21): a step that executes IN or OUT adds exactly one transaction to the history, and no other step adds one. -/
def Obligations.OnlyInOutReachPorts : Prop :=
  ∀ s t : State, step s = .next t →
    if nextOpcode s = some 0xDB ∨ nextOpcode s = some 0xD3 then ∃ e, t.io = s.io ++ [e] else t.io = s.io

/-! ## Registers, memory, reset (10_state.md, 20_memory.md, 70_reset_and_hazards.md) -/

/-- R21: a pair is a view of two registers, written both at once. -/
def Obligations.PairsAreRegisterViews : Prop :=
  ∀ (s : State) (w : Word),
    (s.pair .bc).toNat = s.b.toNat * 256 + s.c.toNat ∧ (s.pair .de).toNat = s.d.toNat * 256 + s.e.toNat ∧
    (s.pair .hl).toNat = s.h.toNat * 256 + s.l.toNat ∧
    ((s.setPair .bc w).b.toNat = w.toNat / 256 ∧ (s.setPair .bc w).c.toNat = w.toNat % 256) ∧
    ((s.setPair .de w).d.toNat = w.toNat / 256 ∧ (s.setPair .de w).e.toNat = w.toNat % 256) ∧
    ((s.setPair .hl w).h.toNat = w.toNat / 256 ∧ (s.setPair .hl w).l.toNat = w.toNat % 256) ∧
    ∀ rp r, r ∉ pairRegs rp → (s.setPair rp w).reg r = s.reg r

/-- R65, R81: a Word store at any address and a Word load from it give HL back, and at 0xFFFF the high Byte is at 0x0000. -/
def Obligations.StoreThenLoadWordWraps : Prop :=
  ∀ (a16 : Word) (s : State), ∃ t, exec (.shld a16) s = .next t ∧
    (∀ r : State, r.mem = t.mem → ∃ u, exec (.lhld a16) r = .next u ∧ u.h = s.h ∧ u.l = s.l) ∧
    (a16 = 0xFFFF → t.readByte 0xFFFF = s.l ∧ t.readByte 0x0000 = s.h)

/-- R38, R60: memory is a total function from the 65536 addresses, so every `MEM_INIT` (R6) is some canonical memory. -/
def Obligations.EveryMemInitCanBeLaunched : Prop :=
  ∀ (f : Word → Byte) (p : Params), ∃ m, Memory.wf m = true ∧ ∀ x, (State.launch p m).readByte x = f x

/-- R40 and R341, for every launch and for every external reset (decisions D3, D4, D5). -/
def Obligations.ResetState : Prop :=
  ∀ (p : Params) (m : Memory) (s : State),
    (∀ t, t = State.launch p m ∨ t = applyHost .externalReset s →
      (∀ r, t.reg r = 0) ∧ (∀ f, flagOf t.flags f = false) ∧ t.sp = 0 ∧ t.pc = t.params.entryPc ∧ t.halted = false ∧
        t.inte = false ∧ t.pending = none) ∧
    (State.launch p m).mem = m ∧ (State.launch p m).params = p ∧
    (applyHost .externalReset s).mem = s.mem ∧ (applyHost .externalReset s).params = s.params

/-- The invariant at reset. Memory with nothing listed, reading 0x00, is the model's choice (log entry 2). -/
def Obligations.ResetHasInvariant : Prop :=
  Inv State.reset ∧ ∀ p, Inv (State.launch p [])

/-- Every step keeps memory canonical. -/
def Obligations.StepKeepsInvariant : Prop :=
  ∀ s t : State, Inv s → step s = .next t → Inv t

/-- So does every run in which steps and host actions alternate (R320), which never changes the parameters either. -/
def Obligations.RunsKeepInvariantAndParams : Prop :=
  ∀ (events : List Event) (s t : State), Inv s → runEvents events s = .next t → Inv t ∧ t.params = s.params

/-! ## Encoding and the step (30_encoding.md) -/

/-- The code tables of R23, R24 and R230 and eleven words written out from R98, one for each family at least. That 0xCB is
unimplemented is the spec's own decision D12. -/
def Obligations.SpecWordsDecode : Prop :=
  [Reg.b, .c, .d, .e, .h, .l, .a].map Reg.code = [0, 1, 2, 3, 4, 5, 7] ∧
    [RegPair.bc, .de, .hl, .sp].map RegPair.code = [0, 1, 2, 3] ∧
    [Cond.nz, .z, .nc, .c, .po, .pe, .p, .m].map Cond.code = [0, 1, 2, 3, 4, 5, 6, 7] ∧
    decode [0b01111000] = .ok (.movRR .a .b, []) ∧ decode [0x01, 0x34, 0x12] = .ok (.lxi .bc 0x1234, []) ∧
    decode [0b10000010] = .ok (.addR .d, []) ∧ decode [0b00011001] = .ok (.dad .de, []) ∧
    decode [0b10111011] = .ok (.cmpR .e, []) ∧ decode [0xCA, 0x50, 0x01] = .ok (.jcc .z 0x0150, []) ∧
    decode [0b11001111] = .ok (.rst 1, []) ∧ decode [0b11110101] = .ok (.pushPsw, []) ∧
    decode [0xDB, 0x10] = .ok (.inPort 0x10, []) ∧ decode [0b01110110] = .ok (.hlt, []) ∧
    decode [0xCB] = .ok (.unimplCB, [])

/-- Decode and encode agree on every well-formed instruction, with every operand at every value (R91, R98). -/
def Obligations.DecodeUndoesEncode : Prop :=
  ∀ (i : Instr) (rest : List Byte), i.wellFormed = true → decode (encode i ++ rest) = .ok (i, rest)

/-- The other direction: what decodes is a well-formed instruction whose Bytes they were, so each word has one meaning. -/
def Obligations.EncodeUndoesDecode : Prop :=
  ∀ (bytes rest : List Byte) (i : Instr), decode bytes = .ok (i, rest) → i.wellFormed = true ∧ bytes = encode i ++ rest

/-- R105: any three Bytes begin with exactly one instruction or one of the twelve unimplemented values, as the first says. Which
values are the twelve is the spec's own decision D12. -/
def Obligations.DecoderIsTotal : Prop :=
  ∀ (b0 b1 b2 : Byte) (rest : List Byte), ∃ i left, decode (b0 :: b1 :: b2 :: rest) = .ok (i, left) ∧
    (b0 ∈ unimplementedOpcodes → i.unimplemented = some b0 ∧ ∀ s : State, ∃ r, exec i s = .fault r) ∧
    (b0 ∉ unimplementedOpcodes → ∀ s : State, ∃ t, exec i s = .next t)

/-- R101: the length of an implemented instruction from its opcode Byte alone; an unimplemented value has none, and faults before
PC is advanced. Which values are the twelve is the spec's own decision D12. -/
def Obligations.OpcodeDecidesLength : Prop :=
  (∀ (b0 : Byte) (bytes rest : List Byte) (i : Instr), decode (b0 :: bytes) = .ok (i, rest) → b0 ∉ unimplementedOpcodes →
    (encode i).length =
      if b0 &&& 0xCF = 0x01 ∨ b0 ∈ ([0x22, 0x2A, 0x32, 0x3A, 0xC3, 0xCD] : List Byte) ∨ b0 &&& 0xC7 = 0xC2 ∨
        b0 &&& 0xC7 = 0xC4 then 3
      else if b0 &&& 0xC7 = 0x06 ∨ b0 &&& 0xC7 = 0xC6 ∨ b0 = 0xD3 ∨ b0 = 0xDB then 2
      else 1) ∧
  ∀ b0 ∈ unimplementedOpcodes, ∀ (rest : List Byte) (s : State), ∃ i, decode (b0 :: rest) = .ok (i, rest) ∧
    i.fetchAdvance = 0 ∧ exec i s = .fault (.unimplementedOpcode b0 s.pc)

/-- A step runs the decoded instruction (R104, R308): with no acceptable request and Running, when the Bytes at PC decode to `i`,
the step is `exec i` with PC moved past the Bytes of `i`, or not moved for an unimplemented value. -/
def Obligations.StepRunsDecodedInstruction : Prop :=
  ∀ (s : State) (i : Instr) (left : List Byte), s.acceptable = none → s.halted = false →
    decode [s.readByte s.pc, s.readByte (s.pc + 1), s.readByte (s.pc + 2)] = .ok (i, left) →
    step s = exec i { s with pc := s.pc + BitVec.ofNat 16 i.fetchAdvance }

/-- The same from the encoder's side: an instruction whose Bytes lie at PC, PC + 1, … modulo 65536 is the one that runs. -/
def Obligations.StepRunsEncodedInstruction : Prop :=
  ∀ (s : State) (i : Instr), s.acceptable = none → s.halted = false → i.wellFormed = true → i.unimplemented = none →
    (∀ k, k < i.size → (encode i)[k]? = some (s.readByte (s.pc + BitVec.ofNat 16 k))) →
    step s = exec i { s with pc := s.pc + BitVec.ofNat 16 i.size }

/-! ## Timing (70_reset_and_hazards.md) -/

/-- R349, R350 (an informative table, PRESUMED by the spec; log entry 14): every implemented instruction has a count of 4 to 18, and
it depends on whether the condition held for Ccc and Rcc alone. -/
def Obligations.CycleCountDependsOnTaken : Prop :=
  ∀ i : Instr, i.unimplemented = none →
    (∀ taken, ∃ n, cycles i taken = some n ∧ 4 ≤ n ∧ n ≤ 18) ∧
      (cycles i true ≠ cycles i false ↔ (∃ cc a16, i = .ccc cc a16) ∨ ∃ cc, i = .rcc cc)
end

