-- ==== Sys2Proof/Laws/Decode.lean ====
section
/-!
SUPPORT. The decoder: one way to check a fact for each of the 256 opcode values, how `decode` and `decodeBytes` agree, and that
the decoder answers only well-formed instructions.
-/

namespace Sys2Proof

set_option maxRecDepth 10000

/-- A fact about an opcode Byte and the form it selects holds if it holds of each of the 256 values. -/
theorem decodeOpcode_forall (P : Byte → OpcodeForm → Bool)
    (h : ((List.range 256).all fun n => P (BitVec.ofNat 8 n) (decodeOpcode (BitVec.ofNat 8 n))) = true) (b : Byte) :
    P b (decodeOpcode b) = true := by
  have hb := List.all_eq_true.mp h b.toNat (List.mem_range.mpr b.isLt)
  rwa [BitVec.ofNat_toNat, BitVec.setWidth_eq] at hb

theorem opcodeMap_length : opcodeMap.length = 256 := rfl

theorem decodeBytes_of_one {b0 : Byte} {i : Instr} (h : decodeOpcode b0 = .one i) (b1 b2 : Byte) :
    decodeBytes b0 b1 b2 = i := by
  simp only [decodeBytes, h]

theorem decodeBytes_of_imm {b0 : Byte} {k : Byte → Instr} (h : decodeOpcode b0 = .imm k) (b1 b2 : Byte) :
    decodeBytes b0 b1 b2 = k b1 := by
  simp only [decodeBytes, h]

theorem decodeBytes_of_addr {b0 : Byte} {k : Word → Instr} (h : decodeOpcode b0 = .addr k) (b1 b2 : Byte) :
    decodeBytes b0 b1 b2 = k (joinBytes b2 b1) := by
  simp only [decodeBytes, h]

/-- From three Bytes on, the list decoder answers the instruction `decodeBytes` reads. -/
theorem decode_of_three (b0 b1 b2 : Byte) (rest : List Byte) :
    ∃ left, decode (b0 :: b1 :: b2 :: rest) = .ok (decodeBytes b0 b1 b2, left) := by
  cases h : decodeOpcode b0 with
  | one i => exact ⟨b1 :: b2 :: rest, by simp only [decode, h, decodeBytes]⟩
  | imm k => exact ⟨b2 :: rest, by simp only [decode, h, decodeBytes]⟩
  | addr k => exact ⟨rest, by simp only [decode, h, decodeBytes]⟩

/-- The instruction of a form, for any operand Bytes. -/
def OpcodeForm.instr (f : OpcodeForm) (b1 b2 : Byte) : Instr :=
  match f with
  | .one i => i
  | .imm k => k b1
  | .addr k => k (joinBytes b2 b1)

theorem decodeBytes_eq (b0 b1 b2 : Byte) : decodeBytes b0 b1 b2 = (decodeOpcode b0).instr b1 b2 := rfl

/-- The decoder answers only well-formed instructions. -/
theorem decodeBytes_wellFormed (b0 b1 b2 : Byte) : (decodeBytes b0 b1 b2).wellFormed = true :=
  decodeOpcode_forall (fun _ f => (f.instr b1 b2).wellFormed) rfl b0

/-- The instruction's own encoding pattern gives back the opcode Byte it was decoded from. -/
theorem encodeOpcode_decodeBytes (b0 b1 b2 : Byte) : encodeOpcode (decodeBytes b0 b1 b2) = b0 :=
  eq_of_beq (decodeOpcode_forall (fun b f => encodeOpcode (f.instr b1 b2) == b) rfl b0)

/-- What the opcode Byte alone says of the instruction: whether it is an unimplemented value (R99). -/
theorem decodeBytes_unimplemented (b0 b1 b2 : Byte) :
    (decodeBytes b0 b1 b2).unimplemented =
      if b0 ∈ ([0x08, 0x10, 0x18, 0x20, 0x28, 0x30, 0x38, 0xCB, 0xD9, 0xDD, 0xED, 0xFD] : List Byte) then some b0
      else none :=
  eq_of_beq (decodeOpcode_forall (fun b f => (f.instr b1 b2).unimplemented ==
    if b ∈ ([0x08, 0x10, 0x18, 0x20, 0x28, 0x30, 0x38, 0xCB, 0xD9, 0xDD, 0xED, 0xFD] : List Byte) then some b
    else none) rfl b0)

theorem fetchAdvance_of_unimplemented {i : Instr} {v : Byte} (h : i.unimplemented = some v) : i.fetchAdvance = 0 := by
  simp only [Instr.fetchAdvance, h]

theorem fetchAdvance_of_implemented {i : Instr} (h : i.unimplemented = none) : i.fetchAdvance = i.size := by
  simp only [Instr.fetchAdvance, h]

end Sys2Proof
end

