-- ==== Sys2Proof/Laws/State.lean ====
section
/-!
SUPPORT. One lemma per field per named update of State: what the update leaves, and the new value where it is one expression.
-/

namespace Sys2Proof.Machine

variable (s : State)

/-! ### writeByte -/

@[simp] theorem State.writeByte_a (x : Word) (v : Byte) : (s.writeByte x v).a = s.a := rfl
@[simp] theorem State.writeByte_b (x : Word) (v : Byte) : (s.writeByte x v).b = s.b := rfl
@[simp] theorem State.writeByte_c (x : Word) (v : Byte) : (s.writeByte x v).c = s.c := rfl
@[simp] theorem State.writeByte_d (x : Word) (v : Byte) : (s.writeByte x v).d = s.d := rfl
@[simp] theorem State.writeByte_e (x : Word) (v : Byte) : (s.writeByte x v).e = s.e := rfl
@[simp] theorem State.writeByte_h (x : Word) (v : Byte) : (s.writeByte x v).h = s.h := rfl
@[simp] theorem State.writeByte_l (x : Word) (v : Byte) : (s.writeByte x v).l = s.l := rfl
@[simp] theorem State.writeByte_flags (x : Word) (v : Byte) : (s.writeByte x v).flags = s.flags := rfl
@[simp] theorem State.writeByte_pc (x : Word) (v : Byte) : (s.writeByte x v).pc = s.pc := rfl
@[simp] theorem State.writeByte_sp (x : Word) (v : Byte) : (s.writeByte x v).sp = s.sp := rfl
@[simp] theorem State.writeByte_inte (x : Word) (v : Byte) : (s.writeByte x v).inte = s.inte := rfl
@[simp] theorem State.writeByte_halted (x : Word) (v : Byte) : (s.writeByte x v).halted = s.halted := rfl
@[simp] theorem State.writeByte_pending (x : Word) (v : Byte) : (s.writeByte x v).pending = s.pending := rfl
@[simp] theorem State.writeByte_params (x : Word) (v : Byte) : (s.writeByte x v).params = s.params := rfl
@[simp] theorem State.writeByte_io (x : Word) (v : Byte) : (s.writeByte x v).io = s.io := rfl

/-! ### writeWord -/

@[simp] theorem State.writeWord_a (x w : Word) : (s.writeWord x w).a = s.a := rfl
@[simp] theorem State.writeWord_b (x w : Word) : (s.writeWord x w).b = s.b := rfl
@[simp] theorem State.writeWord_c (x w : Word) : (s.writeWord x w).c = s.c := rfl
@[simp] theorem State.writeWord_d (x w : Word) : (s.writeWord x w).d = s.d := rfl
@[simp] theorem State.writeWord_e (x w : Word) : (s.writeWord x w).e = s.e := rfl
@[simp] theorem State.writeWord_h (x w : Word) : (s.writeWord x w).h = s.h := rfl
@[simp] theorem State.writeWord_l (x w : Word) : (s.writeWord x w).l = s.l := rfl
@[simp] theorem State.writeWord_flags (x w : Word) : (s.writeWord x w).flags = s.flags := rfl
@[simp] theorem State.writeWord_pc (x w : Word) : (s.writeWord x w).pc = s.pc := rfl
@[simp] theorem State.writeWord_sp (x w : Word) : (s.writeWord x w).sp = s.sp := rfl
@[simp] theorem State.writeWord_inte (x w : Word) : (s.writeWord x w).inte = s.inte := rfl
@[simp] theorem State.writeWord_halted (x w : Word) : (s.writeWord x w).halted = s.halted := rfl
@[simp] theorem State.writeWord_pending (x w : Word) : (s.writeWord x w).pending = s.pending := rfl
@[simp] theorem State.writeWord_params (x w : Word) : (s.writeWord x w).params = s.params := rfl
@[simp] theorem State.writeWord_io (x w : Word) : (s.writeWord x w).io = s.io := rfl

/-! ### writeM -/

@[simp] theorem State.writeM_a (v : Byte) : (s.writeM v).a = s.a := rfl
@[simp] theorem State.writeM_b (v : Byte) : (s.writeM v).b = s.b := rfl
@[simp] theorem State.writeM_c (v : Byte) : (s.writeM v).c = s.c := rfl
@[simp] theorem State.writeM_d (v : Byte) : (s.writeM v).d = s.d := rfl
@[simp] theorem State.writeM_e (v : Byte) : (s.writeM v).e = s.e := rfl
@[simp] theorem State.writeM_h (v : Byte) : (s.writeM v).h = s.h := rfl
@[simp] theorem State.writeM_l (v : Byte) : (s.writeM v).l = s.l := rfl
@[simp] theorem State.writeM_flags (v : Byte) : (s.writeM v).flags = s.flags := rfl
@[simp] theorem State.writeM_pc (v : Byte) : (s.writeM v).pc = s.pc := rfl
@[simp] theorem State.writeM_sp (v : Byte) : (s.writeM v).sp = s.sp := rfl
@[simp] theorem State.writeM_inte (v : Byte) : (s.writeM v).inte = s.inte := rfl
@[simp] theorem State.writeM_halted (v : Byte) : (s.writeM v).halted = s.halted := rfl
@[simp] theorem State.writeM_pending (v : Byte) : (s.writeM v).pending = s.pending := rfl
@[simp] theorem State.writeM_params (v : Byte) : (s.writeM v).params = s.params := rfl
@[simp] theorem State.writeM_io (v : Byte) : (s.writeM v).io = s.io := rfl

/-! ### setReg -/

@[simp] theorem State.setReg_flags (r : Reg) (v : Byte) : (s.setReg r v).flags = s.flags := by cases r <;> rfl
@[simp] theorem State.setReg_pc (r : Reg) (v : Byte) : (s.setReg r v).pc = s.pc := by cases r <;> rfl
@[simp] theorem State.setReg_sp (r : Reg) (v : Byte) : (s.setReg r v).sp = s.sp := by cases r <;> rfl
@[simp] theorem State.setReg_inte (r : Reg) (v : Byte) : (s.setReg r v).inte = s.inte := by cases r <;> rfl
@[simp] theorem State.setReg_halted (r : Reg) (v : Byte) : (s.setReg r v).halted = s.halted := by cases r <;> rfl
@[simp] theorem State.setReg_pending (r : Reg) (v : Byte) : (s.setReg r v).pending = s.pending := by cases r <;> rfl
@[simp] theorem State.setReg_mem (r : Reg) (v : Byte) : (s.setReg r v).mem = s.mem := by cases r <;> rfl
@[simp] theorem State.setReg_params (r : Reg) (v : Byte) : (s.setReg r v).params = s.params := by cases r <;> rfl
@[simp] theorem State.setReg_io (r : Reg) (v : Byte) : (s.setReg r v).io = s.io := by cases r <;> rfl

/-! ### setPair -/

@[simp] theorem State.setPair_a (rp : RegPair) (w : Word) : (s.setPair rp w).a = s.a := by cases rp <;> rfl
@[simp] theorem State.setPair_flags (rp : RegPair) (w : Word) : (s.setPair rp w).flags = s.flags := by cases rp <;> rfl
@[simp] theorem State.setPair_pc (rp : RegPair) (w : Word) : (s.setPair rp w).pc = s.pc := by cases rp <;> rfl
@[simp] theorem State.setPair_inte (rp : RegPair) (w : Word) : (s.setPair rp w).inte = s.inte := by cases rp <;> rfl
@[simp] theorem State.setPair_halted (rp : RegPair) (w : Word) : (s.setPair rp w).halted = s.halted := by cases rp <;> rfl
@[simp] theorem State.setPair_pending (rp : RegPair) (w : Word) : (s.setPair rp w).pending = s.pending := by cases rp <;> rfl
@[simp] theorem State.setPair_mem (rp : RegPair) (w : Word) : (s.setPair rp w).mem = s.mem := by cases rp <;> rfl
@[simp] theorem State.setPair_params (rp : RegPair) (w : Word) : (s.setPair rp w).params = s.params := by cases rp <;> rfl
@[simp] theorem State.setPair_io (rp : RegPair) (w : Word) : (s.setPair rp w).io = s.io := by cases rp <;> rfl

/-! ### setPsw -/

@[simp] theorem State.setPsw_b (w : Word) : (s.setPsw w).b = s.b := rfl
@[simp] theorem State.setPsw_c (w : Word) : (s.setPsw w).c = s.c := rfl
@[simp] theorem State.setPsw_d (w : Word) : (s.setPsw w).d = s.d := rfl
@[simp] theorem State.setPsw_e (w : Word) : (s.setPsw w).e = s.e := rfl
@[simp] theorem State.setPsw_h (w : Word) : (s.setPsw w).h = s.h := rfl
@[simp] theorem State.setPsw_l (w : Word) : (s.setPsw w).l = s.l := rfl
@[simp] theorem State.setPsw_pc (w : Word) : (s.setPsw w).pc = s.pc := rfl
@[simp] theorem State.setPsw_sp (w : Word) : (s.setPsw w).sp = s.sp := rfl
@[simp] theorem State.setPsw_inte (w : Word) : (s.setPsw w).inte = s.inte := rfl
@[simp] theorem State.setPsw_halted (w : Word) : (s.setPsw w).halted = s.halted := rfl
@[simp] theorem State.setPsw_pending (w : Word) : (s.setPsw w).pending = s.pending := rfl
@[simp] theorem State.setPsw_mem (w : Word) : (s.setPsw w).mem = s.mem := rfl
@[simp] theorem State.setPsw_params (w : Word) : (s.setPsw w).params = s.params := rfl
@[simp] theorem State.setPsw_io (w : Word) : (s.setPsw w).io = s.io := rfl
@[simp] theorem State.setPsw_a (w : Word) : (s.setPsw w).a = hiByte w := rfl
@[simp] theorem State.setPsw_flags (w : Word) : (s.setPsw w).flags = Flags.ofByte (loByte w) := rfl

/-! ### push16 -/

@[simp] theorem State.push16_a (w : Word) : (s.push16 w).a = s.a := rfl
@[simp] theorem State.push16_b (w : Word) : (s.push16 w).b = s.b := rfl
@[simp] theorem State.push16_c (w : Word) : (s.push16 w).c = s.c := rfl
@[simp] theorem State.push16_d (w : Word) : (s.push16 w).d = s.d := rfl
@[simp] theorem State.push16_e (w : Word) : (s.push16 w).e = s.e := rfl
@[simp] theorem State.push16_h (w : Word) : (s.push16 w).h = s.h := rfl
@[simp] theorem State.push16_l (w : Word) : (s.push16 w).l = s.l := rfl
@[simp] theorem State.push16_flags (w : Word) : (s.push16 w).flags = s.flags := rfl
@[simp] theorem State.push16_pc (w : Word) : (s.push16 w).pc = s.pc := rfl
@[simp] theorem State.push16_inte (w : Word) : (s.push16 w).inte = s.inte := rfl
@[simp] theorem State.push16_halted (w : Word) : (s.push16 w).halted = s.halted := rfl
@[simp] theorem State.push16_pending (w : Word) : (s.push16 w).pending = s.pending := rfl
@[simp] theorem State.push16_params (w : Word) : (s.push16 w).params = s.params := rfl
@[simp] theorem State.push16_io (w : Word) : (s.push16 w).io = s.io := rfl
@[simp] theorem State.push16_sp (w : Word) : (s.push16 w).sp = s.sp - 2 := rfl

/-! ### drop16 -/

@[simp] theorem State.drop16_a : (s.drop16).a = s.a := rfl
@[simp] theorem State.drop16_b : (s.drop16).b = s.b := rfl
@[simp] theorem State.drop16_c : (s.drop16).c = s.c := rfl
@[simp] theorem State.drop16_d : (s.drop16).d = s.d := rfl
@[simp] theorem State.drop16_e : (s.drop16).e = s.e := rfl
@[simp] theorem State.drop16_h : (s.drop16).h = s.h := rfl
@[simp] theorem State.drop16_l : (s.drop16).l = s.l := rfl
@[simp] theorem State.drop16_flags : (s.drop16).flags = s.flags := rfl
@[simp] theorem State.drop16_pc : (s.drop16).pc = s.pc := rfl
@[simp] theorem State.drop16_inte : (s.drop16).inte = s.inte := rfl
@[simp] theorem State.drop16_halted : (s.drop16).halted = s.halted := rfl
@[simp] theorem State.drop16_pending : (s.drop16).pending = s.pending := rfl
@[simp] theorem State.drop16_mem : (s.drop16).mem = s.mem := rfl
@[simp] theorem State.drop16_params : (s.drop16).params = s.params := rfl
@[simp] theorem State.drop16_io : (s.drop16).io = s.io := rfl
@[simp] theorem State.drop16_sp : (s.drop16).sp = s.sp + 2 := rfl

/-! ### recordIo -/

@[simp] theorem State.recordIo_a (ev : IoEvent) : (s.recordIo ev).a = s.a := rfl
@[simp] theorem State.recordIo_b (ev : IoEvent) : (s.recordIo ev).b = s.b := rfl
@[simp] theorem State.recordIo_c (ev : IoEvent) : (s.recordIo ev).c = s.c := rfl
@[simp] theorem State.recordIo_d (ev : IoEvent) : (s.recordIo ev).d = s.d := rfl
@[simp] theorem State.recordIo_e (ev : IoEvent) : (s.recordIo ev).e = s.e := rfl
@[simp] theorem State.recordIo_h (ev : IoEvent) : (s.recordIo ev).h = s.h := rfl
@[simp] theorem State.recordIo_l (ev : IoEvent) : (s.recordIo ev).l = s.l := rfl
@[simp] theorem State.recordIo_flags (ev : IoEvent) : (s.recordIo ev).flags = s.flags := rfl
@[simp] theorem State.recordIo_pc (ev : IoEvent) : (s.recordIo ev).pc = s.pc := rfl
@[simp] theorem State.recordIo_sp (ev : IoEvent) : (s.recordIo ev).sp = s.sp := rfl
@[simp] theorem State.recordIo_inte (ev : IoEvent) : (s.recordIo ev).inte = s.inte := rfl
@[simp] theorem State.recordIo_halted (ev : IoEvent) : (s.recordIo ev).halted = s.halted := rfl
@[simp] theorem State.recordIo_pending (ev : IoEvent) : (s.recordIo ev).pending = s.pending := rfl
@[simp] theorem State.recordIo_mem (ev : IoEvent) : (s.recordIo ev).mem = s.mem := rfl
@[simp] theorem State.recordIo_params (ev : IoEvent) : (s.recordIo ev).params = s.params := rfl
@[simp] theorem State.recordIo_io (ev : IoEvent) : (s.recordIo ev).io = s.io ++ [ev] := rfl

/-! ### acknowledge -/

@[simp] theorem State.acknowledge_a : (s.acknowledge).a = s.a := rfl
@[simp] theorem State.acknowledge_b : (s.acknowledge).b = s.b := rfl
@[simp] theorem State.acknowledge_c : (s.acknowledge).c = s.c := rfl
@[simp] theorem State.acknowledge_d : (s.acknowledge).d = s.d := rfl
@[simp] theorem State.acknowledge_e : (s.acknowledge).e = s.e := rfl
@[simp] theorem State.acknowledge_h : (s.acknowledge).h = s.h := rfl
@[simp] theorem State.acknowledge_l : (s.acknowledge).l = s.l := rfl
@[simp] theorem State.acknowledge_flags : (s.acknowledge).flags = s.flags := rfl
@[simp] theorem State.acknowledge_pc : (s.acknowledge).pc = s.pc := rfl
@[simp] theorem State.acknowledge_sp : (s.acknowledge).sp = s.sp := rfl
@[simp] theorem State.acknowledge_mem : (s.acknowledge).mem = s.mem := rfl
@[simp] theorem State.acknowledge_params : (s.acknowledge).params = s.params := rfl
@[simp] theorem State.acknowledge_io : (s.acknowledge).io = s.io := rfl
@[simp] theorem State.acknowledge_pending : (s.acknowledge).pending = none := rfl
@[simp] theorem State.acknowledge_halted : (s.acknowledge).halted = false := rfl
@[simp] theorem State.acknowledge_inte : (s.acknowledge).inte = (s.inte && !s.params.intAckClearsInte) := rfl

/-! ### advancePc -/

@[simp] theorem State.advancePc_a (i : Instr) : (s.advancePc i).a = s.a := rfl
@[simp] theorem State.advancePc_b (i : Instr) : (s.advancePc i).b = s.b := rfl
@[simp] theorem State.advancePc_c (i : Instr) : (s.advancePc i).c = s.c := rfl
@[simp] theorem State.advancePc_d (i : Instr) : (s.advancePc i).d = s.d := rfl
@[simp] theorem State.advancePc_e (i : Instr) : (s.advancePc i).e = s.e := rfl
@[simp] theorem State.advancePc_h (i : Instr) : (s.advancePc i).h = s.h := rfl
@[simp] theorem State.advancePc_l (i : Instr) : (s.advancePc i).l = s.l := rfl
@[simp] theorem State.advancePc_flags (i : Instr) : (s.advancePc i).flags = s.flags := rfl
@[simp] theorem State.advancePc_sp (i : Instr) : (s.advancePc i).sp = s.sp := rfl
@[simp] theorem State.advancePc_inte (i : Instr) : (s.advancePc i).inte = s.inte := rfl
@[simp] theorem State.advancePc_halted (i : Instr) : (s.advancePc i).halted = s.halted := rfl
@[simp] theorem State.advancePc_pending (i : Instr) : (s.advancePc i).pending = s.pending := rfl
@[simp] theorem State.advancePc_mem (i : Instr) : (s.advancePc i).mem = s.mem := rfl
@[simp] theorem State.advancePc_params (i : Instr) : (s.advancePc i).params = s.params := rfl
@[simp] theorem State.advancePc_io (i : Instr) : (s.advancePc i).io = s.io := rfl
@[simp] theorem State.advancePc_pc (i : Instr) : (s.advancePc i).pc = s.pc + BitVec.ofNat 16 i.fetchAdvance := rfl

/-! ### addA -/

@[simp] theorem State.addA_b (v : Byte) (cin : Bool) : (s.addA v cin).b = s.b := rfl
@[simp] theorem State.addA_c (v : Byte) (cin : Bool) : (s.addA v cin).c = s.c := rfl
@[simp] theorem State.addA_d (v : Byte) (cin : Bool) : (s.addA v cin).d = s.d := rfl
@[simp] theorem State.addA_e (v : Byte) (cin : Bool) : (s.addA v cin).e = s.e := rfl
@[simp] theorem State.addA_h (v : Byte) (cin : Bool) : (s.addA v cin).h = s.h := rfl
@[simp] theorem State.addA_l (v : Byte) (cin : Bool) : (s.addA v cin).l = s.l := rfl
@[simp] theorem State.addA_pc (v : Byte) (cin : Bool) : (s.addA v cin).pc = s.pc := rfl
@[simp] theorem State.addA_sp (v : Byte) (cin : Bool) : (s.addA v cin).sp = s.sp := rfl
@[simp] theorem State.addA_inte (v : Byte) (cin : Bool) : (s.addA v cin).inte = s.inte := rfl
@[simp] theorem State.addA_halted (v : Byte) (cin : Bool) : (s.addA v cin).halted = s.halted := rfl
@[simp] theorem State.addA_pending (v : Byte) (cin : Bool) : (s.addA v cin).pending = s.pending := rfl
@[simp] theorem State.addA_mem (v : Byte) (cin : Bool) : (s.addA v cin).mem = s.mem := rfl
@[simp] theorem State.addA_params (v : Byte) (cin : Bool) : (s.addA v cin).params = s.params := rfl
@[simp] theorem State.addA_io (v : Byte) (cin : Bool) : (s.addA v cin).io = s.io := rfl
@[simp] theorem State.addA_a (v : Byte) (cin : Bool) : (s.addA v cin).a = add8 s.a v cin := rfl
@[simp] theorem State.addA_flags (v : Byte) (cin : Bool) : (s.addA v cin).flags = add8Flags s.a v cin := rfl

/-! ### subA -/

@[simp] theorem State.subA_b (v : Byte) (bin : Bool) : (s.subA v bin).b = s.b := rfl
@[simp] theorem State.subA_c (v : Byte) (bin : Bool) : (s.subA v bin).c = s.c := rfl
@[simp] theorem State.subA_d (v : Byte) (bin : Bool) : (s.subA v bin).d = s.d := rfl
@[simp] theorem State.subA_e (v : Byte) (bin : Bool) : (s.subA v bin).e = s.e := rfl
@[simp] theorem State.subA_h (v : Byte) (bin : Bool) : (s.subA v bin).h = s.h := rfl
@[simp] theorem State.subA_l (v : Byte) (bin : Bool) : (s.subA v bin).l = s.l := rfl
@[simp] theorem State.subA_pc (v : Byte) (bin : Bool) : (s.subA v bin).pc = s.pc := rfl
@[simp] theorem State.subA_sp (v : Byte) (bin : Bool) : (s.subA v bin).sp = s.sp := rfl
@[simp] theorem State.subA_inte (v : Byte) (bin : Bool) : (s.subA v bin).inte = s.inte := rfl
@[simp] theorem State.subA_halted (v : Byte) (bin : Bool) : (s.subA v bin).halted = s.halted := rfl
@[simp] theorem State.subA_pending (v : Byte) (bin : Bool) : (s.subA v bin).pending = s.pending := rfl
@[simp] theorem State.subA_mem (v : Byte) (bin : Bool) : (s.subA v bin).mem = s.mem := rfl
@[simp] theorem State.subA_params (v : Byte) (bin : Bool) : (s.subA v bin).params = s.params := rfl
@[simp] theorem State.subA_io (v : Byte) (bin : Bool) : (s.subA v bin).io = s.io := rfl
@[simp] theorem State.subA_a (v : Byte) (bin : Bool) : (s.subA v bin).a = sub8 s.a v bin := rfl
@[simp] theorem State.subA_flags (v : Byte) (bin : Bool) : (s.subA v bin).flags = sub8Flags s.a v bin := rfl

/-! ### andA -/

@[simp] theorem State.andA_b (v : Byte) : (s.andA v).b = s.b := rfl
@[simp] theorem State.andA_c (v : Byte) : (s.andA v).c = s.c := rfl
@[simp] theorem State.andA_d (v : Byte) : (s.andA v).d = s.d := rfl
@[simp] theorem State.andA_e (v : Byte) : (s.andA v).e = s.e := rfl
@[simp] theorem State.andA_h (v : Byte) : (s.andA v).h = s.h := rfl
@[simp] theorem State.andA_l (v : Byte) : (s.andA v).l = s.l := rfl
@[simp] theorem State.andA_pc (v : Byte) : (s.andA v).pc = s.pc := rfl
@[simp] theorem State.andA_sp (v : Byte) : (s.andA v).sp = s.sp := rfl
@[simp] theorem State.andA_inte (v : Byte) : (s.andA v).inte = s.inte := rfl
@[simp] theorem State.andA_halted (v : Byte) : (s.andA v).halted = s.halted := rfl
@[simp] theorem State.andA_pending (v : Byte) : (s.andA v).pending = s.pending := rfl
@[simp] theorem State.andA_mem (v : Byte) : (s.andA v).mem = s.mem := rfl
@[simp] theorem State.andA_params (v : Byte) : (s.andA v).params = s.params := rfl
@[simp] theorem State.andA_io (v : Byte) : (s.andA v).io = s.io := rfl
@[simp] theorem State.andA_a (v : Byte) : (s.andA v).a = s.a &&& v := rfl
@[simp] theorem State.andA_flags (v : Byte) : (s.andA v).flags = logicFlags (s.a &&& v) (andAc s.a v) := rfl

/-! ### xorA -/

@[simp] theorem State.xorA_b (v : Byte) : (s.xorA v).b = s.b := rfl
@[simp] theorem State.xorA_c (v : Byte) : (s.xorA v).c = s.c := rfl
@[simp] theorem State.xorA_d (v : Byte) : (s.xorA v).d = s.d := rfl
@[simp] theorem State.xorA_e (v : Byte) : (s.xorA v).e = s.e := rfl
@[simp] theorem State.xorA_h (v : Byte) : (s.xorA v).h = s.h := rfl
@[simp] theorem State.xorA_l (v : Byte) : (s.xorA v).l = s.l := rfl
@[simp] theorem State.xorA_pc (v : Byte) : (s.xorA v).pc = s.pc := rfl
@[simp] theorem State.xorA_sp (v : Byte) : (s.xorA v).sp = s.sp := rfl
@[simp] theorem State.xorA_inte (v : Byte) : (s.xorA v).inte = s.inte := rfl
@[simp] theorem State.xorA_halted (v : Byte) : (s.xorA v).halted = s.halted := rfl
@[simp] theorem State.xorA_pending (v : Byte) : (s.xorA v).pending = s.pending := rfl
@[simp] theorem State.xorA_mem (v : Byte) : (s.xorA v).mem = s.mem := rfl
@[simp] theorem State.xorA_params (v : Byte) : (s.xorA v).params = s.params := rfl
@[simp] theorem State.xorA_io (v : Byte) : (s.xorA v).io = s.io := rfl
@[simp] theorem State.xorA_a (v : Byte) : (s.xorA v).a = s.a ^^^ v := rfl
@[simp] theorem State.xorA_flags (v : Byte) : (s.xorA v).flags = logicFlags (s.a ^^^ v) false := rfl

/-! ### orA -/

@[simp] theorem State.orA_b (v : Byte) : (s.orA v).b = s.b := rfl
@[simp] theorem State.orA_c (v : Byte) : (s.orA v).c = s.c := rfl
@[simp] theorem State.orA_d (v : Byte) : (s.orA v).d = s.d := rfl
@[simp] theorem State.orA_e (v : Byte) : (s.orA v).e = s.e := rfl
@[simp] theorem State.orA_h (v : Byte) : (s.orA v).h = s.h := rfl
@[simp] theorem State.orA_l (v : Byte) : (s.orA v).l = s.l := rfl
@[simp] theorem State.orA_pc (v : Byte) : (s.orA v).pc = s.pc := rfl
@[simp] theorem State.orA_sp (v : Byte) : (s.orA v).sp = s.sp := rfl
@[simp] theorem State.orA_inte (v : Byte) : (s.orA v).inte = s.inte := rfl
@[simp] theorem State.orA_halted (v : Byte) : (s.orA v).halted = s.halted := rfl
@[simp] theorem State.orA_pending (v : Byte) : (s.orA v).pending = s.pending := rfl
@[simp] theorem State.orA_mem (v : Byte) : (s.orA v).mem = s.mem := rfl
@[simp] theorem State.orA_params (v : Byte) : (s.orA v).params = s.params := rfl
@[simp] theorem State.orA_io (v : Byte) : (s.orA v).io = s.io := rfl
@[simp] theorem State.orA_a (v : Byte) : (s.orA v).a = s.a ||| v := rfl
@[simp] theorem State.orA_flags (v : Byte) : (s.orA v).flags = logicFlags (s.a ||| v) false := rfl

/-! ### cmpA -/

@[simp] theorem State.cmpA_a (v : Byte) : (s.cmpA v).a = s.a := rfl
@[simp] theorem State.cmpA_b (v : Byte) : (s.cmpA v).b = s.b := rfl
@[simp] theorem State.cmpA_c (v : Byte) : (s.cmpA v).c = s.c := rfl
@[simp] theorem State.cmpA_d (v : Byte) : (s.cmpA v).d = s.d := rfl
@[simp] theorem State.cmpA_e (v : Byte) : (s.cmpA v).e = s.e := rfl
@[simp] theorem State.cmpA_h (v : Byte) : (s.cmpA v).h = s.h := rfl
@[simp] theorem State.cmpA_l (v : Byte) : (s.cmpA v).l = s.l := rfl
@[simp] theorem State.cmpA_pc (v : Byte) : (s.cmpA v).pc = s.pc := rfl
@[simp] theorem State.cmpA_sp (v : Byte) : (s.cmpA v).sp = s.sp := rfl
@[simp] theorem State.cmpA_inte (v : Byte) : (s.cmpA v).inte = s.inte := rfl
@[simp] theorem State.cmpA_halted (v : Byte) : (s.cmpA v).halted = s.halted := rfl
@[simp] theorem State.cmpA_pending (v : Byte) : (s.cmpA v).pending = s.pending := rfl
@[simp] theorem State.cmpA_mem (v : Byte) : (s.cmpA v).mem = s.mem := rfl
@[simp] theorem State.cmpA_params (v : Byte) : (s.cmpA v).params = s.params := rfl
@[simp] theorem State.cmpA_io (v : Byte) : (s.cmpA v).io = s.io := rfl
@[simp] theorem State.cmpA_flags (v : Byte) : (s.cmpA v).flags = sub8Flags s.a v false := rfl

/-! ### setCy -/

@[simp] theorem State.setCy_a (cy : Bool) : (s.setCy cy).a = s.a := rfl
@[simp] theorem State.setCy_b (cy : Bool) : (s.setCy cy).b = s.b := rfl
@[simp] theorem State.setCy_c (cy : Bool) : (s.setCy cy).c = s.c := rfl
@[simp] theorem State.setCy_d (cy : Bool) : (s.setCy cy).d = s.d := rfl
@[simp] theorem State.setCy_e (cy : Bool) : (s.setCy cy).e = s.e := rfl
@[simp] theorem State.setCy_h (cy : Bool) : (s.setCy cy).h = s.h := rfl
@[simp] theorem State.setCy_l (cy : Bool) : (s.setCy cy).l = s.l := rfl
@[simp] theorem State.setCy_pc (cy : Bool) : (s.setCy cy).pc = s.pc := rfl
@[simp] theorem State.setCy_sp (cy : Bool) : (s.setCy cy).sp = s.sp := rfl
@[simp] theorem State.setCy_inte (cy : Bool) : (s.setCy cy).inte = s.inte := rfl
@[simp] theorem State.setCy_halted (cy : Bool) : (s.setCy cy).halted = s.halted := rfl
@[simp] theorem State.setCy_pending (cy : Bool) : (s.setCy cy).pending = s.pending := rfl
@[simp] theorem State.setCy_mem (cy : Bool) : (s.setCy cy).mem = s.mem := rfl
@[simp] theorem State.setCy_params (cy : Bool) : (s.setCy cy).params = s.params := rfl
@[simp] theorem State.setCy_io (cy : Bool) : (s.setCy cy).io = s.io := rfl
@[simp] theorem State.setCy_flags (cy : Bool) : (s.setCy cy).flags = { s.flags with cy := cy } := rfl

/-! ### callTo -/

@[simp] theorem State.callTo_a (target : Word) : (s.callTo target).a = s.a := rfl
@[simp] theorem State.callTo_b (target : Word) : (s.callTo target).b = s.b := rfl
@[simp] theorem State.callTo_c (target : Word) : (s.callTo target).c = s.c := rfl
@[simp] theorem State.callTo_d (target : Word) : (s.callTo target).d = s.d := rfl
@[simp] theorem State.callTo_e (target : Word) : (s.callTo target).e = s.e := rfl
@[simp] theorem State.callTo_h (target : Word) : (s.callTo target).h = s.h := rfl
@[simp] theorem State.callTo_l (target : Word) : (s.callTo target).l = s.l := rfl
@[simp] theorem State.callTo_flags (target : Word) : (s.callTo target).flags = s.flags := rfl
@[simp] theorem State.callTo_inte (target : Word) : (s.callTo target).inte = s.inte := rfl
@[simp] theorem State.callTo_halted (target : Word) : (s.callTo target).halted = s.halted := rfl
@[simp] theorem State.callTo_pending (target : Word) : (s.callTo target).pending = s.pending := rfl
@[simp] theorem State.callTo_params (target : Word) : (s.callTo target).params = s.params := rfl
@[simp] theorem State.callTo_io (target : Word) : (s.callTo target).io = s.io := rfl
@[simp] theorem State.callTo_pc (target : Word) : (s.callTo target).pc = target := rfl
@[simp] theorem State.callTo_sp (target : Word) : (s.callTo target).sp = s.sp - 2 := rfl
@[simp] theorem State.callTo_mem (target : Word) : (s.callTo target).mem = (s.push16 s.pc).mem := rfl

/-! ### returnToCaller -/

@[simp] theorem State.returnToCaller_a : (s.returnToCaller).a = s.a := rfl
@[simp] theorem State.returnToCaller_b : (s.returnToCaller).b = s.b := rfl
@[simp] theorem State.returnToCaller_c : (s.returnToCaller).c = s.c := rfl
@[simp] theorem State.returnToCaller_d : (s.returnToCaller).d = s.d := rfl
@[simp] theorem State.returnToCaller_e : (s.returnToCaller).e = s.e := rfl
@[simp] theorem State.returnToCaller_h : (s.returnToCaller).h = s.h := rfl
@[simp] theorem State.returnToCaller_l : (s.returnToCaller).l = s.l := rfl
@[simp] theorem State.returnToCaller_flags : (s.returnToCaller).flags = s.flags := rfl
@[simp] theorem State.returnToCaller_inte : (s.returnToCaller).inte = s.inte := rfl
@[simp] theorem State.returnToCaller_halted : (s.returnToCaller).halted = s.halted := rfl
@[simp] theorem State.returnToCaller_pending : (s.returnToCaller).pending = s.pending := rfl
@[simp] theorem State.returnToCaller_mem : (s.returnToCaller).mem = s.mem := rfl
@[simp] theorem State.returnToCaller_params : (s.returnToCaller).params = s.params := rfl
@[simp] theorem State.returnToCaller_io : (s.returnToCaller).io = s.io := rfl
@[simp] theorem State.returnToCaller_pc : (s.returnToCaller).pc = s.top16 := rfl
@[simp] theorem State.returnToCaller_sp : (s.returnToCaller).sp = s.sp + 2 := rfl

end Sys2Proof.Machine
end

