-- ==== Sys2Proof/Laws/Memory.lean ====
section
/-!
SUPPORT. Memory: a read after a write gives the value written at that address and what was there before at every other, in
every state; every memory operation keeps the canonical form; canonical memories that read alike are equal.
-/

namespace Sys2Proof.Machine

/-! ## Lists of cells -/

@[simp] theorem Memory.lookup_nil (x : Nat) : Memory.lookup [] x = memFill := rfl

theorem Memory.lookup_cons (k : Nat) (v : Byte) (m : Memory) (x : Nat) :
    Memory.lookup ((k, v) :: m) x = if k = x then v else Memory.lookup m x := rfl

theorem Memory.lookup_erase (m : Memory) (x y : Nat) :
    Memory.lookup (Memory.erase m x) y = if y = x then memFill else Memory.lookup m y := by
  induction m with
  | nil => simp [Memory.erase]
  | cons c m ih =>
    obtain ⟨k, v⟩ := c
    have ih' := ih
    unfold Memory.erase at ih' ⊢
    by_cases hk : k = x
    · rw [List.filter_cons_of_neg (by simp [hk]), ih', Memory.lookup_cons]
      by_cases hy : y = x
      · simp [hy]
      · have : k ≠ y := by omega
        simp [hy, this]
    · rw [List.filter_cons_of_pos (by simp [hk]), Memory.lookup_cons, Memory.lookup_cons, ih']
      by_cases hy : y = x
      · have : k ≠ y := by omega
        simp [hy, hk]
      · simp [hy]

theorem Memory.ne_of_mem_erase {m : Memory} {x : Nat} {c : Host.Cell} (h : c ∈ Memory.erase m x) : c.1 ≠ x := by
  simpa using (List.mem_filter.mp h).2

theorem Memory.lookup_insert (m : Memory) (x : Nat) (v : Byte) (y : Nat) (h : ∀ c ∈ m, c.1 ≠ x) :
    Memory.lookup (Memory.insert m x v) y = if x = y then v else Memory.lookup m y := by
  induction m with
  | nil => simp [Memory.insert, Memory.lookup_cons]
  | cons c m ih =>
    obtain ⟨k, w⟩ := c
    have hk : k ≠ x := h (k, w) (by simp)
    have ih' := ih fun c hc => h c (by simp [hc])
    by_cases hlt : x < k
    · simp [Memory.insert, hlt, Memory.lookup_cons]
    · simp only [Memory.insert, hlt, if_false, Memory.lookup_cons, ih']
      by_cases hy : x = y
      · have : k ≠ y := by omega
        simp [hy, this]
      · simp [hy]

/-- A read after a write, in every state (R64). -/
theorem Memory.lookup_update (m : Memory) (x : Nat) (v : Byte) (y : Nat) :
    Memory.lookup (Memory.update m x v) y = if y = x then v else Memory.lookup m y := by
  unfold Memory.update
  by_cases hv : v = memFill
  · simp [hv, Memory.lookup_erase]
  · rw [if_neg hv, Memory.lookup_insert _ _ _ _ fun c hc => Memory.ne_of_mem_erase hc, Memory.lookup_erase]
    by_cases hy : y = x
    · simp [hy]
    · have : ¬x = y := fun h => hy h.symm
      simp [hy, this]

/-! ## The canonical form -/

theorem Memory.wfFrom_cons {lo k : Nat} {v : Byte} {m : Memory} :
    Memory.wfFrom lo ((k, v) :: m) = true ↔ lo ≤ k ∧ k < 65536 ∧ v ≠ memFill ∧ Memory.wfFrom (k + 1) m = true := by
  simp [Memory.wfFrom, and_assoc]

theorem Memory.wfFrom_mono {m : Memory} {lo lo' : Nat} (h : Memory.wfFrom lo m = true) (hlo : lo' ≤ lo) :
    Memory.wfFrom lo' m = true := by
  cases m with
  | nil => rfl
  | cons c m =>
    obtain ⟨k, v⟩ := c
    rw [Memory.wfFrom_cons] at h ⊢
    exact ⟨by omega, h.2⟩

theorem Memory.wfFrom_erase {m : Memory} {lo : Nat} (x : Nat) (h : Memory.wfFrom lo m = true) :
    Memory.wfFrom lo (Memory.erase m x) = true := by
  induction m generalizing lo with
  | nil => rfl
  | cons c m ih =>
    obtain ⟨k, v⟩ := c
    rw [Memory.wfFrom_cons] at h
    have ih' := ih h.2.2.2
    unfold Memory.erase at ih' ⊢
    by_cases hk : k = x
    · rw [List.filter_cons_of_neg (by simp [hk])]
      exact Memory.wfFrom_mono ih' (by omega)
    · rw [List.filter_cons_of_pos (by simp [hk]), Memory.wfFrom_cons]
      exact ⟨h.1, h.2.1, h.2.2.1, ih'⟩

theorem Memory.wfFrom_insert {m : Memory} {lo x : Nat} {v : Byte} (h : Memory.wfFrom lo m = true) (hne : ∀ c ∈ m, c.1 ≠ x)
    (hlo : lo ≤ x) (hx : x < 65536) (hv : v ≠ memFill) : Memory.wfFrom lo (Memory.insert m x v) = true := by
  induction m generalizing lo with
  | nil => exact Memory.wfFrom_cons.mpr ⟨hlo, hx, hv, rfl⟩
  | cons c m ih =>
    obtain ⟨k, w⟩ := c
    have hk : k ≠ x := hne (k, w) (by simp)
    rw [Memory.wfFrom_cons] at h
    by_cases hlt : x < k
    · simp only [Memory.insert, hlt, if_true, Memory.wfFrom_cons]
      exact ⟨hlo, hx, hv, by omega, h.2⟩
    · simp only [Memory.insert, hlt, if_false, Memory.wfFrom_cons]
      exact ⟨h.1, h.2.1, h.2.2.1, ih h.2.2.2 (fun c hc => hne c (by simp [hc])) (by omega)⟩

/-- Writing a Byte keeps the canonical form. -/
theorem Memory.wf_update {m : Memory} (h : Memory.wf m = true) {x : Nat} (hx : x < 65536) (v : Byte) :
    Memory.wf (Memory.update m x v) = true := by
  unfold Memory.wf at h ⊢
  unfold Memory.update
  by_cases hv : v = memFill
  · rw [if_pos hv]
    exact Memory.wfFrom_erase x h
  · rw [if_neg hv]
    exact Memory.wfFrom_insert (Memory.wfFrom_erase x h) (fun c hc => Memory.ne_of_mem_erase hc) (Nat.zero_le x) hx hv

theorem Memory.lookup_of_lt {m : Memory} {lo x : Nat} (h : Memory.wfFrom lo m = true) (hx : x < lo) :
    Memory.lookup m x = memFill := by
  induction m generalizing lo with
  | nil => rfl
  | cons c m ih =>
    obtain ⟨k, v⟩ := c
    rw [Memory.wfFrom_cons] at h
    have : k ≠ x := by omega
    rw [Memory.lookup_cons, if_neg this]
    exact ih h.2.2.2 (by omega)

/-- A canonical memory lists nothing from 65536 up. -/
theorem Memory.lookup_of_ge {m : Memory} {lo x : Nat} (h : Memory.wfFrom lo m = true) (hx : 65536 ≤ x) :
    Memory.lookup m x = memFill := by
  induction m generalizing lo with
  | nil => rfl
  | cons c m ih =>
    obtain ⟨k, v⟩ := c
    rw [Memory.wfFrom_cons] at h
    have : k ≠ x := by omega
    rw [Memory.lookup_cons, if_neg this]
    exact ih h.2.2.2

theorem Memory.eq_of_wfFrom {m n : Memory} {lo : Nat} (hm : Memory.wfFrom lo m = true) (hn : Memory.wfFrom lo n = true)
    (h : ∀ x, Memory.lookup m x = Memory.lookup n x) : m = n := by
  induction m generalizing n lo with
  | nil =>
    cases n with
    | nil => rfl
    | cons c n =>
      obtain ⟨k, v⟩ := c
      rw [Memory.wfFrom_cons] at hn
      exact absurd (by simpa [Memory.lookup_cons] using (h k).symm) hn.2.2.1
  | cons c m ih =>
    obtain ⟨k, v⟩ := c
    rw [Memory.wfFrom_cons] at hm
    cases n with
    | nil => exact absurd (by simpa [Memory.lookup_cons] using h k) hm.2.2.1
    | cons c' n =>
      obtain ⟨k', v'⟩ := c'
      rw [Memory.wfFrom_cons] at hn
      have hk : k = k' := by
        rcases Nat.lt_trichotomy k k' with hlt | heq | hlt
        · have e := h k
          rw [Memory.lookup_cons, if_pos rfl, Memory.lookup_cons, if_neg (by omega),
            Memory.lookup_of_lt hn.2.2.2 (by omega)] at e
          exact absurd e hm.2.2.1
        · exact heq
        · have e := h k'
          rw [Memory.lookup_cons, if_neg (by omega), Memory.lookup_cons, if_pos rfl,
            Memory.lookup_of_lt hm.2.2.2 (by omega)] at e
          exact absurd e.symm hn.2.2.1
      subst hk
      have hv : v = v' := by simpa [Memory.lookup_cons] using h k
      subst hv
      have hrest : ∀ x, Memory.lookup m x = Memory.lookup n x := by
        intro x
        by_cases hx : k = x
        · subst hx
          rw [Memory.lookup_of_lt hm.2.2.2 (by omega), Memory.lookup_of_lt hn.2.2.2 (by omega)]
        · simpa [Memory.lookup_cons, hx] using h x
      rw [ih hm.2.2.2 hn.2.2.2 hrest]

/-- Canonical memories that read alike at every address are the same data. -/
theorem Memory.eq_of_wf {m n : Memory} (hm : Memory.wf m = true) (hn : Memory.wf n = true)
    (h : ∀ x, Memory.lookup m x = Memory.lookup n x) : m = n :=
  Memory.eq_of_wfFrom hm hn h

/-! ## Access through the state -/

variable (s : State)

/-- Reads look at memory alone. -/
theorem State.readByte_congr {s t : State} (h : t.mem = s.mem) (x : Word) : t.readByte x = s.readByte x := by
  unfold State.readByte
  rw [h]

theorem State.readByte_writeByte (x : Word) (v : Byte) (y : Word) :
    (s.writeByte x v).readByte y = if y = x then v else s.readByte y := by
  simp only [State.readByte, State.writeByte, Memory.lookup_update, BitVec.toNat_inj]

@[simp] theorem State.readByte_writeByte_self (x : Word) (v : Byte) : (s.writeByte x v).readByte x = v := by
  simp [State.readByte_writeByte]

theorem State.readByte_writeByte_ne {x y : Word} (h : y ≠ x) (v : Byte) : (s.writeByte x v).readByte y = s.readByte y := by
  simp [State.readByte_writeByte, h]

theorem word_add_one_ne (x : Word) : x + 1 ≠ x := by
  intro h
  have e := congrArg BitVec.toNat h
  rw [BitVec.toNat_add] at e
  have hx := x.isLt
  simp at e
  omega

/-- Where a Word write goes (R65). -/
theorem State.readByte_writeWord (x w y : Word) :
    (s.writeWord x w).readByte y = if y = x + 1 then hiByte w else if y = x then loByte w else s.readByte y := by
  simp only [State.writeWord, State.readByte_writeByte]

/-- A Word read after a Word write at any address, the top of memory included (R65, R81). -/
@[simp] theorem State.readWord_writeWord_self (x w : Word) : (s.writeWord x w).readWord x = w := by
  simp [State.readWord, State.readByte_writeWord]

theorem State.readByte_push16 (w y : Word) :
    (s.push16 w).readByte y =
      if y = s.sp - 2 + 1 then hiByte w else if y = s.sp - 2 then loByte w else s.readByte y := by
  rw [State.push16, State.readByte_writeWord]
  rfl

theorem State.wf_writeByte {s : State} (h : Memory.wf s.mem = true) (x : Word) (v : Byte) :
    Memory.wf (s.writeByte x v).mem = true :=
  Memory.wf_update h x.isLt v

theorem State.wf_writeWord {s : State} (h : Memory.wf s.mem = true) (x w : Word) :
    Memory.wf (s.writeWord x w).mem = true :=
  State.wf_writeByte (State.wf_writeByte h x (loByte w)) (x + 1) (hiByte w)

theorem State.wf_push16 {s : State} (h : Memory.wf s.mem = true) (w : Word) : Memory.wf (s.push16 w).mem = true :=
  State.wf_writeWord (s := { s with sp := s.sp - 2 }) h (s.sp - 2) w

theorem State.wf_writeBytes {s : State} (h : Memory.wf s.mem = true) (x : Word) (bytes : List Byte) :
    Memory.wf (s.writeBytes x bytes).mem = true := by
  induction bytes generalizing s x with
  | nil => exact h
  | cons v rest ih => exact ih (State.wf_writeByte h x v) (x + 1)

theorem State.reset_wf : Memory.wf State.reset.mem = true := rfl

end Sys2Proof.Machine
end

