-- ==== Sys2Proof/Laws/Registers.lean ====
section
/-!
SUPPORT. Registers and pairs: a read after a write of the same register gives the value, every other register is as it was,
and a pair and the two registers it is made of never disagree (R21).
-/

namespace Sys2Proof.Machine

variable (s : State)

@[simp] theorem State.reg_setReg_self (r : Reg) (v : Byte) : (s.setReg r v).reg r = v := by
  cases r <;> rfl

theorem State.reg_setReg_ne {r r' : Reg} (h : r' ≠ r) (v : Byte) : (s.setReg r v).reg r' = s.reg r' := by
  cases r <;> cases r' <;> first | rfl | exact absurd rfl h

@[simp] theorem State.pair_setPair_self (rp : RegPair) (w : Word) : (s.setPair rp w).pair rp = w := by
  cases rp <;> simp [State.setPair, State.pair, State.bc, State.de, State.hl]

theorem State.reg_setPair_of_notMem {rp : RegPair} {r : Reg} (h : r ∉ pairRegs rp) (w : Word) :
    (s.setPair rp w).reg r = s.reg r := by
  cases rp <;> cases r <;> first | rfl | exact absurd (by decide) h

theorem State.sp_setPair_of_ne {rp : RegPair} (h : rp ≠ .sp) (w : Word) : (s.setPair rp w).sp = s.sp := by
  cases rp <;> first | rfl | exact absurd rfl h

/-- A Word pushed is the Word on top (R76, R77). -/
@[simp] theorem State.top16_push16 (w : Word) : (s.push16 w).top16 = w := by
  rw [State.top16, State.push16_sp, State.push16, State.readWord_writeWord_self]

end Sys2Proof.Machine
end

