-- ==== Sys2Proof/Laws/Exec.lean ====
section
/-!
SUPPORT. What executing any instruction can do, said once: it faults exactly for an unimplemented value and else gives a next
state, and what every next state keeps.
-/

namespace Sys2Proof.Machine

/-- Executing an instruction either raises the one fault, for an unimplemented value, or gives a next state (R302). -/
theorem exec_cases (i : Instr) (s : State) :
    (∃ v, i.unimplemented = some v ∧ exec i s = .fault (.unimplementedOpcode v s.pc)) ∨
      (i.unimplemented = none ∧ ∃ t, exec i s = .next t) := by
  cases i <;> first | exact .inr ⟨rfl, _, rfl⟩ | exact .inl ⟨_, rfl, rfl⟩

theorem exec_of_unimplemented {i : Instr} {v : Byte} (h : i.unimplemented = some v) (s : State) :
    exec i s = .fault (.unimplementedOpcode v s.pc) := by
  obtain ⟨w, hw, e⟩ | ⟨hn, -⟩ := exec_cases i s
  · rw [h] at hw
    cases hw
    exact e
  · rw [h] at hn
    cases hn

theorem exec_of_implemented {i : Instr} (h : i.unimplemented = none) (s : State) : ∃ t, exec i s = .next t := by
  obtain ⟨w, hw, -⟩ | ⟨-, e⟩ := exec_cases i s
  · rw [h] at hw
    cases hw
  · exact e

/-- The outcome is a next state with the property, or no next state. -/
def NextHas (P : State → Prop) : Host.Outcome State Fault Refusal → Prop
  | .next t => P t
  | .fault _ => True
  | .refused _ => True

theorem NextHas.elim {P : State → Prop} {o : Host.Outcome State Fault Refusal} (h : NextHas P o) {t : State}
    (e : o = .next t) : P t := by
  subst e
  exact h

theorem NextHas.ite {P : State → Prop} {c : Prop} [Decidable c] {t u : State} (ht : P t) (hu : P u) :
    NextHas P (.next (if c then t else u)) := by
  show P (if c then t else u)
  split <;> assumption

/-- Every instruction keeps memory canonical. -/
theorem exec_keeps_wf {i : Instr} {s t : State} (h : exec i s = .next t) (hs : Memory.wf s.mem = true) :
    Memory.wf t.mem = true := by
  refine NextHas.elim (P := fun t => Memory.wf t.mem = true) ?_ h
  cases i <;>
    first
    | trivial
    | exact hs
    | exact NextHas.ite hs hs
    | exact NextHas.ite (State.wf_push16 hs _) hs
    | exact State.wf_writeByte hs _ _
    | exact State.wf_writeWord hs _ _
    | exact State.wf_push16 hs _
    | (show Memory.wf (State.setReg _ _ _).mem = true; rw [State.setReg_mem]; exact hs)
    | (show Memory.wf (State.setPair _ _ _).mem = true; rw [State.setPair_mem]; exact hs)

/-- No instruction writes the parameters. -/
theorem exec_keeps_params {i : Instr} {s t : State} (h : exec i s = .next t) : t.params = s.params := by
  refine NextHas.elim (P := fun t => t.params = s.params) ?_ h
  cases i <;>
    first
    | trivial
    | rfl
    | exact NextHas.ite rfl rfl
    | exact State.setReg_params _ _ _
    | exact State.setPair_params _ _ _

/-- No instruction reads or writes PENDING (R35). -/
theorem exec_keeps_pending {i : Instr} {s t : State} (h : exec i s = .next t) : t.pending = s.pending := by
  refine NextHas.elim (P := fun t => t.pending = s.pending) ?_ h
  cases i <;>
    first
    | trivial
    | rfl
    | exact NextHas.ite rfl rfl
    | exact State.setReg_pending _ _ _
    | exact State.setPair_pending _ _ _

/-- What an instruction writes to INTE, if it does (R33). -/
def inteWritten : Instr → Option Bool
  | .ei => some true
  | .di => some false
  | _ => none

/-- INTE is written by EI and DI and by no other instruction (R33). -/
theorem exec_inte {i : Instr} {s t : State} (h : exec i s = .next t) : t.inte = (inteWritten i).getD s.inte := by
  refine NextHas.elim (P := fun t => t.inte = (inteWritten i).getD s.inte) ?_ h
  cases i <;>
    first
    | trivial
    | rfl
    | exact NextHas.ite rfl rfl
    | exact State.setReg_inte _ _ _
    | exact State.setPair_inte _ _ _

/-- HALTED is written by HLT and by no other instruction (R34). -/
theorem exec_halted {i : Instr} {s t : State} (h : exec i s = .next t) : t.halted = (decide (i = .hlt) || s.halted) := by
  refine NextHas.elim (P := fun t => t.halted = (decide (i = .hlt) || s.halted)) ?_ h
  cases i <;>
    first
    | trivial
    | rfl
    | exact NextHas.ite rfl rfl
    | exact State.setReg_halted _ _ _
    | exact State.setPair_halted _ _ _

/-- The transaction an instruction makes, as a function of A before and A after it (R280, R281). -/
def ioDone (before after : Byte) : Instr → List IoEvent
  | .inPort port => [.input port after]
  | .outPort port => [.output port before]
  | _ => []

/-- IN and OUT add one transaction to the history, and no other instruction does (R286). -/
theorem exec_io {i : Instr} {s t : State} (h : exec i s = .next t) : t.io = s.io ++ ioDone s.a t.a i := by
  refine NextHas.elim (P := fun t => t.io = s.io ++ ioDone s.a t.a i) ?_ h
  have nil : s.io = s.io ++ [] := (List.append_nil _).symm
  cases i <;>
    first
    | trivial
    | exact nil
    | rfl
    | exact NextHas.ite nil nil
    | exact (State.setReg_io _ _ _).trans nil
    | exact (State.setPair_io _ _ _).trans nil

end Sys2Proof.Machine
end

