-- ==== Sys2Proof/Laws/Flags.lean ====
section
/-!
SUPPORT. What each result and flag computation answers, in terms of natural numbers and bits, so that no proof unfolds one.
-/

namespace Sys2Proof.Machine

/-! ## The flags of a result (R30) -/

@[simp] theorem resultFlags_s (r : Byte) (ac cy : Bool) : (resultFlags r ac cy).s = r.getLsbD 7 := rfl
@[simp] theorem resultFlags_z (r : Byte) (ac cy : Bool) : (resultFlags r ac cy).z = decide (r = 0) := rfl
@[simp] theorem resultFlags_ac (r : Byte) (ac cy : Bool) : (resultFlags r ac cy).ac = ac := rfl
@[simp] theorem resultFlags_p (r : Byte) (ac cy : Bool) : (resultFlags r ac cy).p = parity r := by
  simp only [resultFlags]
@[simp] theorem resultFlags_cy (r : Byte) (ac cy : Bool) : (resultFlags r ac cy).cy = cy := rfl

/-- Bit 7 of a Byte is set from 128 on. -/
theorem getLsbD_seven (r : Byte) : r.getLsbD 7 = true ↔ 128 ≤ r.toNat := by
  rw [show r.getLsbD 7 = r.msb from rfl, BitVec.msb_eq_decide]
  simp

/-! ## Results (R150, R151, R165, R167, R171) -/

theorem toNat_add8 (a v : Byte) (c : Bool) : (add8 a v c).toNat = (a.toNat + v.toNat + bit c) % 256 := by
  simp [add8, add8Sum]

theorem toNat_sub8 (a v : Byte) (b : Bool) : (sub8 a v b).toNat = (a.toNat + 256 - (v.toNat + bit b)) % 256 := by
  have := a.isLt
  have := v.isLt
  have := bit_le_one b
  simp only [sub8, sub8Diff, BitVec.toNat_ofInt]
  omega

theorem toNat_inc8 (v : Byte) : (inc8 v).toNat = (v.toNat + 1) % 256 := by
  simp [inc8]

theorem toNat_dec8 (v : Byte) : (dec8 v).toNat = (v.toNat + 255) % 256 := by
  simp [dec8]
  omega

theorem toNat_add16 (x y : Word) : (add16 x y).toNat = (x.toNat + y.toNat) % 65536 := by
  simp [add16, add16Sum]

theorem add16Carry_iff (x y : Word) : add16Carry x y = true ↔ 65536 ≤ x.toNat + y.toNat := by
  simp [add16Carry, add16Sum]
  omega

/-! ## Decimal adjust (R172) -/

theorem daaLow_iff (a : Byte) (f : Flags) : daaLow a f = true ↔ a.toNat % 16 > 9 ∨ f.ac = true := by
  simp [daaLow, lowNibble]

/-- The high correction in terms of A as it was. -/
theorem daaHigh_iff (a : Byte) (f : Flags) :
    daaHigh a f = true ↔ a.toNat / 16 > 9 ∨ f.cy = true ∨ (a.toNat / 16 ≥ 9 ∧ a.toNat % 16 > 9) := by
  have := a.isLt
  obtain ⟨fs, fz, fac, fp, fcy⟩ := f
  cases fcy <;> cases fac <;> simp [daaHigh, daaStep1, daaLow, lowNibble] <;> (try split) <;> omega

/-- CY after DAA says that the high correction was done. -/
theorem daaFlags_cy (a : Byte) (f : Flags) : (daaFlags a f).cy = daaHigh a f := by
  have := a.isLt
  have hh := daaHigh_iff a f
  by_cases h : daaHigh a f = true
  · simp only [daaFlags, resultFlags, h, if_true]
    rw [hh] at h
    simp only [daaStep2, daaStep1, hh.mpr h, if_true]
    obtain ⟨fs, fz, fac, fp, fcy⟩ := f
    cases fcy <;> simp [daaLow, lowNibble] at h ⊢
    split <;> omega
  · simp only [daaFlags, resultFlags, h]
    rw [hh] at h
    simp only [not_or] at h
    simpa using h.2.1

/-! ## The flags byte (R28) -/

/-- What PUSH PSW writes, POP PSW reads back. -/
@[simp] theorem Flags.ofByte_toByte (f : Flags) : Flags.ofByte f.toByte = f := by
  obtain ⟨s, z, ac, p, cy⟩ := f
  revert s z ac p cy
  decide

/-- Bit 5 and bit 3 of the flags byte are 0 and bit 1 is 1. -/
theorem Flags.toByte_fixed (f : Flags) :
    f.toByte.getLsbD 5 = false ∧ f.toByte.getLsbD 3 = false ∧ f.toByte.getLsbD 1 = true := by
  obtain ⟨s, z, ac, p, cy⟩ := f
  revert s z ac p cy
  decide

end Sys2Proof.Machine
end

