-- ==== Sys2Proof/Laws/Step.lean ====
section
/-!
SUPPORT. What one step can do, said once (R308): hold, execute the fetched instruction, or accept an interrupt.
-/

namespace Sys2Proof.Machine

variable {s t : State}

theorem acceptable_eq_some {v : Byte} : s.acceptable = some v ↔ s.inte = true ∧ s.pending = some v := by
  unfold State.acceptable
  split <;> simp_all

theorem acceptable_eq_none : s.acceptable = none ↔ s.inte = false ∨ s.pending = none := by
  unfold State.acceptable
  split <;> simp_all

theorem step_of_held (ha : s.acceptable = none) (hh : s.halted = true) : step s = .next s := by
  simp only [step, stepCore, ha, hh, if_true, heldStep]

theorem step_of_running (ha : s.acceptable = none) (hh : s.halted = false) :
    step s = exec s.fetch (s.advancePc s.fetch) := by
  simp only [step, stepCore, ha, hh, fetchStep, Bool.false_eq_true, if_false]

theorem step_of_accept {v : Byte} (ha : s.acceptable = some v) : step s = acceptInterrupt v s := by
  simp only [step, stepCore, ha]

theorem acceptInterrupt_of_one {v : Byte} {i : Instr} (h : decodeOpcode v = .one i) (hi : i.unimplemented = none) :
    acceptInterrupt v s = exec i s.acknowledge := by
  simp only [acceptInterrupt, injectedInstr, h, hi]

theorem acceptInterrupt_of_unimplemented {v w : Byte} {i : Instr} (h : decodeOpcode v = .one i)
    (hi : i.unimplemented = some w) : acceptInterrupt v s = .fault (.unimplementedOpcode w s.pc) := by
  simp only [acceptInterrupt, injectedInstr, h, hi, exec_of_unimplemented hi]

theorem injectedInstr_eq_some {v : Byte} {i : Instr} : injectedInstr v = some i ↔ decodeOpcode v = .one i := by
  unfold injectedInstr
  cases decodeOpcode v <;> simp

/-- A step that gives a next state held, executed the instruction at PC, or executed an injected one. -/
theorem step_cases (h : step s = .next t) :
    (s.acceptable = none ∧ s.halted = true ∧ t = s) ∨
      (s.acceptable = none ∧ s.halted = false ∧ exec s.fetch (s.advancePc s.fetch) = .next t) ∨
      ∃ v i, s.acceptable = some v ∧ injectedInstr v = some i ∧ i.unimplemented = none ∧ exec i s.acknowledge = .next t := by
  cases ha : s.acceptable with
  | none =>
    cases hh : s.halted with
    | true =>
      rw [step_of_held ha hh] at h
      cases h
      exact .inl ⟨rfl, rfl, rfl⟩
    | false =>
      rw [step_of_running ha hh] at h
      exact .inr (.inl ⟨rfl, rfl, h⟩)
  | some v =>
    rw [step_of_accept ha] at h
    unfold acceptInterrupt at h
    split at h
    · cases h
    · rename_i i hi
      split at h
      · rename_i w hw
        rw [exec_of_unimplemented hw] at h
        cases h
      · rename_i hn
        exact .inr (.inr ⟨v, i, rfl, hi, hn, h⟩)

theorem encodeOpcode_of_injected {v : Byte} {i : Instr} (h : injectedInstr v = some i) : encodeOpcode i = v := by
  have e := encodeOpcode_decodeBytes v 0 0
  rwa [decodeBytes_of_one (injectedInstr_eq_some.mp h)] at e

/-- The same three cases by the opcode Byte about to be executed: it is the opcode of the instruction that runs. -/
theorem step_cases_opcode (h : step s = .next t) :
    (nextOpcode s = none ∧ s.acceptable = none ∧ s.halted = true ∧ t = s) ∨
      (∃ i, nextOpcode s = some (encodeOpcode i) ∧ i.wellFormed = true ∧ s.acceptable = none ∧ s.halted = false ∧
        exec i (s.advancePc i) = .next t) ∨
      ∃ i, nextOpcode s = some (encodeOpcode i) ∧ i.wellFormed = true ∧ s.acceptable = some (encodeOpcode i) ∧
        injectedInstr (encodeOpcode i) = some i ∧ exec i s.acknowledge = .next t := by
  obtain ⟨ha, hh, rfl⟩ | ⟨ha, hh, e⟩ | ⟨v, i, ha, hi, -, e⟩ := step_cases h
  · exact .inl ⟨by simp only [nextOpcode, ha, hh, if_true], ha, hh, rfl⟩
  · refine .inr (.inl ⟨s.fetch, ?_, decodeBytes_wellFormed _ _ _, ha, hh, e⟩)
    simp only [nextOpcode, ha, hh, State.fetch, encodeOpcode_decodeBytes, Bool.false_eq_true, if_false]
  · have w := decodeBytes_wellFormed v 0 0
    rw [decodeBytes_of_one (injectedInstr_eq_some.mp hi)] at w
    obtain rfl := encodeOpcode_of_injected hi
    exact .inr (.inr ⟨i, by simp only [nextOpcode, ha], w, ha, hi, e⟩)

/-- Whatever every instruction keeps and the fetch and the acknowledgement do not touch, a step keeps. -/
theorem step_induction {P : State → State → Prop} (hheld : P s s)
    (hfetch : ∀ i, exec i (s.advancePc i) = .next t → P s t)
    (haccept : ∀ i, exec i s.acknowledge = .next t → P s t) (h : step s = .next t) : P s t := by
  obtain ⟨-, -, rfl⟩ | ⟨-, -, e⟩ | ⟨v, i, -, -, -, e⟩ := step_cases h
  · exact hheld
  · exact hfetch _ e
  · exact haccept _ e

theorem step_keeps_params (h : step s = .next t) : t.params = s.params :=
  step_induction (P := fun s t => t.params = s.params) rfl
    (fun i e => exec_keeps_params (s := s.advancePc i) e) (fun _ e => exec_keeps_params (s := s.acknowledge) e) h

end Sys2Proof.Machine
end

