-- ==== Sys2Proof/Tests/Slice0.lean ====
section
/-!
SUPPORT. Tests. Expected results are those of 95_test_vectors.md, part 2 (worked by hand from the rules, not from a run), or, where
a comment says so, worked by hand from the rule cited. After them, a named witness for the hypotheses of every statement
in Certificates/Slice0/Obligations.lean that has any, and for its clauses at the ends of their ranges.
-/

open Sys2Proof Sys2Proof.Machine Sys2Proof.Claims

namespace Sys2Proof.Tests

set_option maxRecDepth 4000

/-! ## Helpers -/

/-- The launch at `pc` with the memory cells listed, every other Byte 0x00 (the conventions of 95_test_vectors.md). -/
def start (pc : Word) (cells : Memory) : State := State.launch ⟨pc, true⟩ cells

/-- The flags from S, Z, AC, P, CY as 0 or 1. -/
def flagBits (s z ac p cy : Nat) : Flags := ⟨s == 1, z == 1, ac == 1, p == 1, cy == 1⟩

/-- What is read from the next state, none where the step gives none. -/
def after {α : Type} (s : State) (f : State → α) : Option α :=
  match step s with
  | .next t => some (f t)
  | .fault _ => none
  | .refused _ => none

/-- The fault a step raises, none where it raises none. -/
def faultOf (s : State) : Option Fault :=
  match step s with
  | .next _ => none
  | .fault f => some f
  | .refused _ => none

/-! ## Well-formedness: an ill-formed term for each check -/

theorem test_wf_push_sp_refused : (Instr.push .sp).wellFormed = false := by decide
theorem test_wf_pop_sp_refused : (Instr.pop .sp).wellFormed = false := by decide
theorem test_wf_ldax_hl_refused : (Instr.ldax .hl).wellFormed = false := by decide
theorem test_wf_ldax_sp_refused : (Instr.ldax .sp).wellFormed = false := by decide
theorem test_wf_stax_hl_refused : (Instr.stax .hl).wellFormed = false := by decide
theorem test_wf_stax_sp_refused : (Instr.stax .sp).wellFormed = false := by decide
theorem test_wf_push_hl : (Instr.push .hl).wellFormed = true := by decide
theorem test_wf_ldax_de : (Instr.ldax .de).wellFormed = true := by decide

/-! ## Decoding: words written out bit by bit from the encodings of each rule and of R98

Data transfer (R121 to R133). -/

theorem test_decode_mov_b_a : decode [0b01000111] = .ok (.movRR .b .a, []) := rfl
theorem test_decode_mov_h_m : decode [0b01100110] = .ok (.movRM .h, []) := rfl
theorem test_decode_mov_m_e : decode [0b01110011] = .ok (.movMR .e, []) := rfl
theorem test_decode_mvi_l : decode [0b00101110, 0x7F] = .ok (.mviR .l 0x7F, []) := rfl
theorem test_decode_mvi_m : decode [0b00110110, 0x80] = .ok (.mviM 0x80, []) := rfl
theorem test_decode_lxi_sp : decode [0b00110001, 0x34, 0x12] = .ok (.lxi .sp 0x1234, []) := rfl
theorem test_decode_lda : decode [0b00111010, 0x00, 0x03] = .ok (.lda 0x0300, []) := rfl
theorem test_decode_sta : decode [0b00110010, 0xFF, 0x01] = .ok (.sta 0x01FF, []) := rfl
theorem test_decode_lhld : decode [0b00101010, 0xCD, 0xAB] = .ok (.lhld 0xABCD, []) := rfl
theorem test_decode_shld : decode [0b00100010, 0xCD, 0xAB] = .ok (.shld 0xABCD, []) := rfl
theorem test_decode_ldax_d : decode [0b00011010] = .ok (.ldax .de, []) := rfl
theorem test_decode_stax_b : decode [0b00000010] = .ok (.stax .bc, []) := rfl
theorem test_decode_xchg : decode [0b11101011] = .ok (.xchg, []) := rfl

/-! Arithmetic (R153 to R172). -/

theorem test_decode_add_d : decode [0b10000010] = .ok (.addR .d, []) := rfl
theorem test_decode_add_m : decode [0b10000110] = .ok (.addM, []) := rfl
theorem test_decode_adi : decode [0b11000110, 0x42] = .ok (.adi 0x42, []) := rfl
theorem test_decode_adc_a : decode [0b10001111] = .ok (.adcR .a, []) := rfl
theorem test_decode_adc_m : decode [0b10001110] = .ok (.adcM, []) := rfl
theorem test_decode_aci : decode [0b11001110, 0x01] = .ok (.aci 0x01, []) := rfl
theorem test_decode_sub_c : decode [0b10010001] = .ok (.subR .c, []) := rfl
theorem test_decode_sub_m : decode [0b10010110] = .ok (.subM, []) := rfl
theorem test_decode_sui : decode [0b11010110, 0x02] = .ok (.sui 0x02, []) := rfl
theorem test_decode_sbb_l : decode [0b10011101] = .ok (.sbbR .l, []) := rfl
theorem test_decode_sbb_m : decode [0b10011110] = .ok (.sbbM, []) := rfl
theorem test_decode_sbi : decode [0b11011110, 0x03] = .ok (.sbi 0x03, []) := rfl
theorem test_decode_inr_h : decode [0b00100100] = .ok (.inrR .h, []) := rfl
theorem test_decode_inr_m : decode [0b00110100] = .ok (.inrM, []) := rfl
theorem test_decode_dcr_e : decode [0b00011101] = .ok (.dcrR .e, []) := rfl
theorem test_decode_dcr_m : decode [0b00110101] = .ok (.dcrM, []) := rfl
theorem test_decode_inx_h : decode [0b00100011] = .ok (.inx .hl, []) := rfl
theorem test_decode_dcx_sp : decode [0b00111011] = .ok (.dcx .sp, []) := rfl
theorem test_decode_dad_d : decode [0b00011001] = .ok (.dad .de, []) := rfl
theorem test_decode_daa : decode [0b00100111] = .ok (.daa, []) := rfl

/-! Logical (R191 to R209). -/

theorem test_decode_ana_b : decode [0b10100000] = .ok (.anaR .b, []) := rfl
theorem test_decode_ana_m : decode [0b10100110] = .ok (.anaM, []) := rfl
theorem test_decode_ani : decode [0b11100110, 0x0F] = .ok (.ani 0x0F, []) := rfl
theorem test_decode_xra_h : decode [0b10101100] = .ok (.xraR .h, []) := rfl
theorem test_decode_xra_m : decode [0b10101110] = .ok (.xraM, []) := rfl
theorem test_decode_xri : decode [0b11101110, 0x81] = .ok (.xri 0x81, []) := rfl
theorem test_decode_ora_e : decode [0b10110011] = .ok (.oraR .e, []) := rfl
theorem test_decode_ora_m : decode [0b10110110] = .ok (.oraM, []) := rfl
theorem test_decode_ori : decode [0b11110110, 0x0F] = .ok (.ori 0x0F, []) := rfl
theorem test_decode_cmp_e : decode [0b10111011] = .ok (.cmpR .e, []) := rfl
theorem test_decode_cmp_m : decode [0b10111110] = .ok (.cmpM, []) := rfl
theorem test_decode_cpi : decode [0b11111110, 0x40] = .ok (.cpi 0x40, []) := rfl
theorem test_decode_rlc : decode [0b00000111] = .ok (.rlc, []) := rfl
theorem test_decode_rrc : decode [0b00001111] = .ok (.rrc, []) := rfl
theorem test_decode_ral : decode [0b00010111] = .ok (.ral, []) := rfl
theorem test_decode_rar : decode [0b00011111] = .ok (.rar, []) := rfl
theorem test_decode_cma : decode [0b00101111] = .ok (.cma, []) := rfl
theorem test_decode_stc : decode [0b00110111] = .ok (.stc, []) := rfl
theorem test_decode_cmc : decode [0b00111111] = .ok (.cmc, []) := rfl

/-! Branch (R231 to R238). -/

theorem test_decode_jmp : decode [0b11000011, 0x00, 0x3E] = .ok (.jmp 0x3E00, []) := rfl
theorem test_decode_jz : decode [0b11001010, 0x50, 0x01] = .ok (.jcc .z 0x0150, []) := rfl
theorem test_decode_jpo : decode [0b11100010, 0x50, 0x01] = .ok (.jcc .po 0x0150, []) := rfl
theorem test_decode_call : decode [0b11001101, 0x00, 0x20] = .ok (.call 0x2000, []) := rfl
theorem test_decode_cm : decode [0b11111100, 0x00, 0x20] = .ok (.ccc .m 0x2000, []) := rfl
theorem test_decode_ret : decode [0b11001001] = .ok (.ret, []) := rfl
theorem test_decode_rnc : decode [0b11010000] = .ok (.rcc .nc, []) := rfl
theorem test_decode_pchl : decode [0b11101001] = .ok (.pchl, []) := rfl
theorem test_decode_rst_5 : decode [0b11101111] = .ok (.rst 5, []) := rfl

/-! Stack (R260 to R265). -/

theorem test_decode_push_d : decode [0b11010101] = .ok (.push .de, []) := rfl
theorem test_decode_push_psw : decode [0b11110101] = .ok (.pushPsw, []) := rfl
theorem test_decode_pop_h : decode [0b11100001] = .ok (.pop .hl, []) := rfl
theorem test_decode_pop_psw : decode [0b11110001] = .ok (.popPsw, []) := rfl
theorem test_decode_xthl : decode [0b11100011] = .ok (.xthl, []) := rfl
theorem test_decode_sphl : decode [0b11111001] = .ok (.sphl, []) := rfl

/-! Input/output and control (R280 to R285), the unimplemented values (R99). -/

theorem test_decode_in : decode [0b11011011, 0x10] = .ok (.inPort 0x10, []) := rfl
theorem test_decode_out : decode [0b11010011, 0x01] = .ok (.outPort 0x01, []) := rfl
theorem test_decode_ei : decode [0b11111011] = .ok (.ei, []) := rfl
theorem test_decode_di : decode [0b11110011] = .ok (.di, []) := rfl
theorem test_decode_hlt : decode [0b01110110] = .ok (.hlt, []) := rfl
theorem test_decode_nop : decode [0b00000000] = .ok (.nop, []) := rfl

theorem test_decode_unimplemented :
    [0x08, 0x10, 0x18, 0x20, 0x28, 0x30, 0x38, 0xCB, 0xD9, 0xDD, 0xED, 0xFD].map (fun b => injectedInstr b) =
      [some .unimpl08, some .unimpl10, some .unimpl18, some .unimpl20, some .unimpl28, some .unimpl30, some .unimpl38,
       some .unimplCB, some .unimplD9, some .unimplDD, some .unimplED, some .unimplFD] := by decide

theorem test_decode_truncated : decode [0xCD, 0x00] = .error (.truncated 0xCD) := rfl
theorem test_decode_empty : decode [] = .error .empty := rfl

/-- S1: the 256 values of Parity, one row of the grid for each high digit. -/
theorem test_parity_grid :
    ((List.range 16).map fun lo => parity (BitVec.ofNat 8 lo)) =
      [true, false, false, true, false, true, true, false, false, true, true, false, true, false, false, true] ∧
    (List.range 256).all (fun n => parity (BitVec.ofNat 8 n) ==
      (parity (BitVec.ofNat 8 (n / 16)) == parity (BitVec.ofNat 8 (n % 16)))) = true := by decide

/-! ## Data transfer: rows of 95_test_vectors.md, part 2 -/

theorem test_mov_b_a :
    after { start 0x0100 [(0x0100, 0x47)] with a := 0x5A } (fun t => (t.b, t.pc, t.flags)) =
      some (0x5A, 0x0101, flagBits 0 0 0 0 0) := by decide

theorem test_mov_m_e :
    after { start 0x0100 [(0x0100, 0x73)] with h := 0x20, l := 0x00, e := 0x9C }
        (fun t => (t.pc, t.readByte 0x2000, t.flags)) =
      some (0x0101, 0x9C, flagBits 0 0 0 0 0) := by decide

theorem test_mov_a_m :
    after { start 0x0100 [(0x0100, 0x7E), (0xFFFF, 0x77)] with h := 0xFF, l := 0xFF } (fun t => (t.a, t.pc, t.flags)) =
      some (0x77, 0x0101, flagBits 0 0 0 0 0) := by decide

theorem test_mov_h_l :
    after { start 0x0100 [(0x0100, 0x65)] with h := 0x12, l := 0xAB } (fun t => (t.h, t.pc, t.flags)) =
      some (0xAB, 0x0101, flagBits 0 0 0 0 0) := by decide

theorem test_mvi_m_ff :
    after { start 0x0100 [(0x0100, 0x36), (0x0101, 0xFF)] with h := 0x20, l := 0x00 }
        (fun t => (t.pc, t.readByte 0x2000, t.flags)) =
      some (0x0102, 0xFF, flagBits 0 0 0 0 0) := by decide

theorem test_mvi_h_3c :
    after (start 0x0100 [(0x0100, 0x26), (0x0101, 0x3C)]) (fun t => (t.h, t.pc, t.flags)) =
      some (0x3C, 0x0102, flagBits 0 0 0 0 0) := by decide

theorem test_lxi_sp_1234 :
    after (start 0x0100 [(0x0100, 0x31), (0x0101, 0x34), (0x0102, 0x12)]) (fun t => (t.pc, t.sp, t.flags)) =
      some (0x0103, 0x1234, flagBits 0 0 0 0 0) := by decide

theorem test_lxi_h_abcd_across_the_wrap :
    after (start 0xFFFE [(0x0000, 0xAB), (0xFFFE, 0x21), (0xFFFF, 0xCD)]) (fun t => (t.h, t.l, t.pc, t.flags)) =
      some (0xAB, 0xCD, 0x0001, flagBits 0 0 0 0 0) := by decide

theorem test_lda_0300 :
    after (start 0x0100 [(0x0100, 0x3A), (0x0102, 0x03), (0x0300, 0xE7)]) (fun t => (t.a, t.pc, t.flags)) =
      some (0xE7, 0x0103, flagBits 0 0 0 0 0) := by decide

theorem test_sta_ffff :
    after { start 0x0100 [(0x0100, 0x32), (0x0101, 0xFF), (0x0102, 0xFF)] with a := 0x99 }
        (fun t => (t.pc, t.readByte 0xFFFF, t.flags)) =
      some (0x0103, 0x99, flagBits 0 0 0 0 0) := by decide

theorem test_lhld_ffff :
    after (start 0x0100 [(0x0000, 0x22), (0x0100, 0x2A), (0x0101, 0xFF), (0x0102, 0xFF), (0xFFFF, 0x11)])
        (fun t => (t.h, t.l, t.pc, t.flags)) =
      some (0x22, 0x11, 0x0103, flagBits 0 0 0 0 0) := by decide

theorem test_shld_2000 :
    after { start 0x0100 [(0x0100, 0x22), (0x0102, 0x20)] with h := 0xAE, l := 0x29 }
        (fun t => (t.pc, t.readByte 0x2000, t.readByte 0x2001, t.flags)) =
      some (0x0103, 0x29, 0xAE, flagBits 0 0 0 0 0) := by decide

theorem test_shld_ffff :
    after { start 0x0100 [(0x0100, 0x22), (0x0101, 0xFF), (0x0102, 0xFF)] with h := 0xAE, l := 0x29 }
        (fun t => (t.pc, t.readByte 0x0000, t.readByte 0xFFFF, t.flags)) =
      some (0x0103, 0xAE, 0x29, flagBits 0 0 0 0 0) := by decide

theorem test_ldax_b :
    after { start 0x0100 [(0x0100, 0x0A), (0x2100, 0x3F)] with b := 0x21, c := 0x00 } (fun t => (t.a, t.pc, t.flags)) =
      some (0x3F, 0x0101, flagBits 0 0 0 0 0) := by decide

theorem test_ldax_d :
    after { start 0x0100 [(0x0100, 0x1A), (0x938B, 0x01)] with d := 0x93, e := 0x8B } (fun t => (t.a, t.pc, t.flags)) =
      some (0x01, 0x0101, flagBits 0 0 0 0 0) := by decide

theorem test_stax_b :
    after { start 0x0100 [(0x0100, 0x02)] with b := 0x3F, c := 0x16, a := 0x7C }
        (fun t => (t.pc, t.readByte 0x3F16, t.flags)) =
      some (0x0101, 0x7C, flagBits 0 0 0 0 0) := by decide

theorem test_stax_d :
    after { start 0x0100 [(0x0100, 0x12)] with d := 0x00, e := 0x00, a := 0x7C }
        (fun t => (t.pc, t.readByte 0x0000, t.flags)) =
      some (0x0101, 0x7C, flagBits 0 0 0 0 0) := by decide

theorem test_xchg :
    after { start 0x0100 [(0x0100, 0xEB)] with h := 0x00, l := 0xFF, d := 0x33, e := 0x55 }
        (fun t => (t.d, t.e, t.h, t.l, t.pc, t.flags)) =
      some (0x00, 0xFF, 0x33, 0x55, 0x0101, flagBits 0 0 0 0 0) := by decide

/-! ## Arithmetic: rows of 95_test_vectors.md, part 2 -/

theorem test_add_b :
    after { start 0x0100 [(0x0100, 0x80)] with a := 0x6C, b := 0x2E } (fun t => (t.a, t.pc, t.flags)) =
      some (0x9A, 0x0101, flagBits 1 0 1 1 0) := by decide

theorem test_add_a :
    after { start 0x0100 [(0x0100, 0x87)] with a := 0x80 } (fun t => (t.a, t.pc, t.flags)) =
      some (0x00, 0x0101, flagBits 0 1 0 1 1) := by decide

theorem test_add_m :
    after { start 0x0100 [(0x0100, 0x86), (0x2000, 0x01)] with a := 0x0F, h := 0x20, l := 0x00 }
        (fun t => (t.a, t.pc, t.flags)) =
      some (0x10, 0x0101, flagBits 0 0 1 0 0) := by decide

theorem test_adi_42 :
    after { start 0x0100 [(0x0100, 0xC6), (0x0101, 0x42)] with a := 0x14 } (fun t => (t.a, t.pc, t.flags)) =
      some (0x56, 0x0102, flagBits 0 0 0 1 0) := by decide

theorem test_adc_c :
    after { start 0x0100 [(0x0100, 0x89)] with a := 0x3D, c := 0x42, flags := flagBits 0 0 0 0 1 }
        (fun t => (t.a, t.pc, t.flags)) =
      some (0x80, 0x0101, flagBits 1 0 1 0 0) := by decide

theorem test_adc_c_2 :
    after { start 0x0100 [(0x0100, 0x89)] with a := 0x3D, c := 0x42, flags := flagBits 0 0 0 0 0 }
        (fun t => (t.a, t.pc, t.flags)) =
      some (0x7F, 0x0101, flagBits 0 0 0 0 0) := by decide

theorem test_aci_ff :
    after { start 0x0100 [(0x0100, 0xCE), (0x0101, 0xFF)] with a := 0x00, flags := flagBits 0 0 0 0 1 }
        (fun t => (t.a, t.pc, t.flags)) =
      some (0x00, 0x0102, flagBits 0 1 1 1 1) := by decide

theorem test_sub_a :
    after { start 0x0100 [(0x0100, 0x97)] with a := 0x3E, flags := flagBits 0 0 0 0 1 }
        (fun t => (t.a, t.pc, t.flags)) =
      some (0x00, 0x0101, flagBits 0 1 1 1 0) := by decide

theorem test_sub_b :
    after { start 0x0100 [(0x0100, 0x90)] with a := 0x00, b := 0x01 } (fun t => (t.a, t.pc, t.flags)) =
      some (0xFF, 0x0101, flagBits 1 0 0 1 1) := by decide

theorem test_sui_01 :
    after { start 0x0100 [(0x0100, 0xD6), (0x0101, 0x01)] with a := 0x00 } (fun t => (t.a, t.pc, t.flags)) =
      some (0xFF, 0x0102, flagBits 1 0 0 1 1) := by decide

theorem test_sbb_l :
    after { start 0x0100 [(0x0100, 0x9D)] with a := 0x04, l := 0x02, flags := flagBits 0 0 0 0 1 }
        (fun t => (t.a, t.pc, t.flags)) =
      some (0x01, 0x0101, flagBits 0 0 1 0 0) := by decide

theorem test_sbi_ff :
    after { start 0x0100 [(0x0100, 0xDE), (0x0101, 0xFF)] with a := 0x00, flags := flagBits 0 0 0 0 1 }
        (fun t => (t.a, t.pc, t.flags)) =
      some (0x00, 0x0102, flagBits 0 1 0 1 1) := by decide

theorem test_sbi_01 :
    after { start 0x0100 [(0x0100, 0xDE), (0x0101, 0x01)] with a := 0x00, flags := flagBits 0 0 0 0 0 }
        (fun t => (t.a, t.pc, t.flags)) =
      some (0xFF, 0x0102, flagBits 1 0 0 1 1) := by decide

theorem test_inr_a :
    after { start 0x0100 [(0x0100, 0x3C)] with a := 0xFF, flags := flagBits 0 0 0 0 1 }
        (fun t => (t.a, t.pc, t.flags)) =
      some (0x00, 0x0101, flagBits 0 1 1 1 1) := by decide

theorem test_inr_c :
    after { start 0x0100 [(0x0100, 0x0C)] with c := 0x99 } (fun t => (t.a, t.c, t.pc, t.flags)) =
      some (0x00, 0x9A, 0x0101, flagBits 1 0 0 1 0) := by decide

theorem test_inr_m :
    after { start 0x0100 [(0x0100, 0x34), (0x2000, 0x7F)] with h := 0x20, l := 0x00 }
        (fun t => (t.a, t.pc, t.readByte 0x2000, t.flags)) =
      some (0x00, 0x0101, 0x80, flagBits 1 0 1 0 0) := by decide

theorem test_dcr_b :
    after { start 0x0100 [(0x0100, 0x05)] with b := 0x00, flags := flagBits 0 0 0 0 0 }
        (fun t => (t.a, t.b, t.pc, t.flags)) =
      some (0x00, 0xFF, 0x0101, flagBits 1 0 0 1 0) := by decide

theorem test_dcr_a :
    after { start 0x0100 [(0x0100, 0x3D)] with a := 0x10 } (fun t => (t.a, t.pc, t.flags)) =
      some (0x0F, 0x0101, flagBits 0 0 0 1 0) := by decide

theorem test_dcr_m :
    after { start 0x0100 [(0x0100, 0x35), (0x3A7C, 0x40)] with h := 0x3A, l := 0x7C }
        (fun t => (t.a, t.pc, t.readByte 0x3A7C, t.flags)) =
      some (0x00, 0x0101, 0x3F, flagBits 0 0 0 1 0) := by decide

theorem test_inx_sp :
    after { start 0x0100 [(0x0100, 0x33)] with sp := 0xFFFF, flags := flagBits 0 1 0 0 0 }
        (fun t => (t.a, t.pc, t.sp, t.flags)) =
      some (0x00, 0x0101, 0x0000, flagBits 0 1 0 0 0) := by decide

theorem test_inx_d :
    after { start 0x0100 [(0x0100, 0x13)] with d := 0x38, e := 0xFF } (fun t => (t.d, t.e, t.pc, t.flags)) =
      some (0x39, 0x00, 0x0101, flagBits 0 0 0 0 0) := by decide

theorem test_dcx_b :
    after { start 0x0100 [(0x0100, 0x0B)] with b := 0x00, c := 0x00 } (fun t => (t.b, t.c, t.pc, t.flags)) =
      some (0xFF, 0xFF, 0x0101, flagBits 0 0 0 0 0) := by decide

theorem test_dcx_h :
    after { start 0x0100 [(0x0100, 0x2B)] with h := 0x98, l := 0x00 } (fun t => (t.h, t.l, t.pc, t.flags)) =
      some (0x97, 0xFF, 0x0101, flagBits 0 0 0 0 0) := by decide

theorem test_dad_h :
    after { start 0x0100 [(0x0100, 0x29)] with h := 0x80, l := 0x00 } (fun t => (t.a, t.h, t.pc, t.flags)) =
      some (0x00, 0x00, 0x0101, flagBits 0 0 0 0 1) := by decide

theorem test_dad_b :
    after { start 0x0100 [(0x0100, 0x09)] with b := 0x33, c := 0x9F, h := 0xA1, l := 0x7B, flags := flagBits 0 0 0 0 1 }
        (fun t => (t.a, t.h, t.l, t.pc, t.flags)) =
      some (0x00, 0xD5, 0x1A, 0x0101, flagBits 0 0 0 0 0) := by decide

theorem test_daa :
    after { start 0x0100 [(0x0100, 0x27)] with a := 0x32, flags := flagBits 0 0 1 0 1 }
        (fun t => (t.a, t.pc, t.flags)) =
      some (0x98, 0x0101, flagBits 1 0 0 0 1) := by decide

theorem test_daa_2 :
    after { start 0x0100 [(0x0100, 0x27)] with a := 0xFA } (fun t => (t.a, t.pc, t.flags)) =
      some (0x60, 0x0101, flagBits 0 0 1 1 1) := by decide

/-! ## Logical, compare, rotate, carry: rows of 95_test_vectors.md, part 2 -/

theorem test_ana_b :
    after { start 0x0100 [(0x0100, 0xA0)] with a := 0xFC, b := 0x0F, flags := flagBits 0 0 0 0 1 }
        (fun t => (t.a, t.pc, t.flags)) =
      some (0x0C, 0x0101, flagBits 0 0 1 1 0) := by decide

theorem test_ana_m :
    after { start 0x0100 [(0x0100, 0xA6), (0x2000, 0x07)] with a := 0xF0, h := 0x20, l := 0x00, flags := flagBits 0 0 1 0 1 }
        (fun t => (t.a, t.pc, t.flags)) =
      some (0x00, 0x0101, flagBits 0 1 0 1 0) := by decide

theorem test_ani_f0 :
    after { start 0x0100 [(0x0100, 0xE6), (0x0101, 0xF0)] with a := 0x37 } (fun t => (t.a, t.pc, t.flags)) =
      some (0x30, 0x0102, flagBits 0 0 0 1 0) := by decide

theorem test_ani_0f :
    after { start 0x0100 [(0x0100, 0xE6), (0x0101, 0x0F)] with a := 0x3A } (fun t => (t.a, t.pc, t.flags)) =
      some (0x0A, 0x0102, flagBits 0 0 1 1 0) := by decide

theorem test_xra_a :
    after { start 0x0100 [(0x0100, 0xAF)] with a := 0x5C, flags := flagBits 0 0 1 0 1 }
        (fun t => (t.a, t.pc, t.flags)) =
      some (0x00, 0x0101, flagBits 0 1 0 1 0) := by decide

theorem test_xra_b :
    after { start 0x0100 [(0x0100, 0xA8)] with a := 0xFF, b := 0x0F } (fun t => (t.a, t.pc, t.flags)) =
      some (0xF0, 0x0101, flagBits 1 0 0 1 0) := by decide

theorem test_xri_81 :
    after { start 0x0100 [(0x0100, 0xEE), (0x0101, 0x81)] with a := 0x3B } (fun t => (t.a, t.pc, t.flags)) =
      some (0xBA, 0x0102, flagBits 1 0 0 0 0) := by decide

theorem test_ora_c :
    after { start 0x0100 [(0x0100, 0xB1)] with a := 0x33, c := 0x0F, flags := flagBits 0 0 1 0 1 }
        (fun t => (t.a, t.pc, t.flags)) =
      some (0x3F, 0x0101, flagBits 0 0 0 1 0) := by decide

theorem test_ora_a :
    after { start 0x0100 [(0x0100, 0xB7)] with a := 0x00, flags := flagBits 0 0 0 0 1 }
        (fun t => (t.a, t.pc, t.flags)) =
      some (0x00, 0x0101, flagBits 0 1 0 1 0) := by decide

theorem test_ori_0f :
    after { start 0x0100 [(0x0100, 0xF6), (0x0101, 0x0F)] with a := 0xB5 } (fun t => (t.a, t.pc, t.flags)) =
      some (0xBF, 0x0102, flagBits 1 0 0 0 0) := by decide

theorem test_cmp_e :
    after { start 0x0100 [(0x0100, 0xBB)] with a := 0x02, e := 0x05 } (fun t => (t.a, t.pc, t.flags)) =
      some (0x02, 0x0101, flagBits 1 0 0 0 1) := by decide

theorem test_cmp_e_2 :
    after { start 0x0100 [(0x0100, 0xBB)] with a := 0xE5, e := 0x05 } (fun t => (t.a, t.pc, t.flags)) =
      some (0xE5, 0x0101, flagBits 1 0 1 0 0) := by decide

theorem test_cmp_m :
    after { start 0x0100 [(0x0100, 0xBE), (0x2000, 0x80)] with a := 0x80, h := 0x20, l := 0x00 }
        (fun t => (t.a, t.pc, t.flags)) =
      some (0x80, 0x0101, flagBits 0 1 1 1 0) := by decide

theorem test_cpi_40 :
    after { start 0x0100 [(0x0100, 0xFE), (0x0101, 0x40)] with a := 0x4A } (fun t => (t.a, t.pc, t.flags)) =
      some (0x4A, 0x0102, flagBits 0 0 1 1 0) := by decide

theorem test_cpi_00 :
    after { start 0x0100 [(0x0100, 0xFE)] with a := 0x00, flags := flagBits 0 0 0 0 1 }
        (fun t => (t.a, t.pc, t.flags)) =
      some (0x00, 0x0102, flagBits 0 1 1 1 0) := by decide

theorem test_rlc :
    after { start 0x0100 [(0x0100, 0x07)] with a := 0xF2, flags := flagBits 0 1 0 0 0 }
        (fun t => (t.a, t.pc, t.flags)) =
      some (0xE5, 0x0101, flagBits 0 1 0 0 1) := by decide

theorem test_rrc :
    after { start 0x0100 [(0x0100, 0x0F)] with a := 0xF2, flags := flagBits 0 0 0 0 1 }
        (fun t => (t.a, t.pc, t.flags)) =
      some (0x79, 0x0101, flagBits 0 0 0 0 0) := by decide

theorem test_rrc_2 :
    after { start 0x0100 [(0x0100, 0x0F)] with a := 0x01 } (fun t => (t.a, t.pc, t.flags)) =
      some (0x80, 0x0101, flagBits 0 0 0 0 1) := by decide

theorem test_ral :
    after { start 0x0100 [(0x0100, 0x17)] with a := 0xB5, flags := flagBits 0 0 0 0 0 }
        (fun t => (t.a, t.pc, t.flags)) =
      some (0x6A, 0x0101, flagBits 0 0 0 0 1) := by decide

theorem test_rar :
    after { start 0x0100 [(0x0100, 0x1F)] with a := 0x6A, flags := flagBits 0 0 0 0 1 }
        (fun t => (t.a, t.pc, t.flags)) =
      some (0xB5, 0x0101, flagBits 0 0 0 0 0) := by decide

theorem test_ral_2 :
    after { start 0x0100 [(0x0100, 0x17)] with a := 0x00, flags := flagBits 0 0 0 0 1 }
        (fun t => (t.a, t.pc, t.flags)) =
      some (0x01, 0x0101, flagBits 0 0 0 0 0) := by decide

theorem test_cma :
    after { start 0x0100 [(0x0100, 0x2F)] with a := 0x51, flags := flagBits 0 1 0 0 1 }
        (fun t => (t.a, t.pc, t.flags)) =
      some (0xAE, 0x0101, flagBits 0 1 0 0 1) := by decide

theorem test_stc :
    after { start 0x0100 [(0x0100, 0x37)] with flags := flagBits 0 0 0 0 0 } (fun t => (t.a, t.pc, t.flags)) =
      some (0x00, 0x0101, flagBits 0 0 0 0 1) := by decide

theorem test_stc_2 :
    after { start 0x0100 [(0x0100, 0x37)] with flags := flagBits 0 0 0 0 1 } (fun t => (t.a, t.pc, t.flags)) =
      some (0x00, 0x0101, flagBits 0 0 0 0 1) := by decide

theorem test_cmc :
    after { start 0x0100 [(0x0100, 0x3F)] with flags := flagBits 0 0 0 0 1 } (fun t => (t.a, t.pc, t.flags)) =
      some (0x00, 0x0101, flagBits 0 0 0 0 0) := by decide

theorem test_cmc_2 :
    after { start 0x0100 [(0x0100, 0x3F)] with flags := flagBits 0 0 0 0 0 } (fun t => (t.a, t.pc, t.flags)) =
      some (0x00, 0x0101, flagBits 0 0 0 0 1) := by decide

/-! ## Branch: rows of 95_test_vectors.md, part 2 -/

theorem test_jmp_3e00 :
    after (start 0x0100 [(0x0100, 0xC3), (0x0102, 0x3E)]) (fun t => (t.pc, t.flags)) =
      some (0x3E00, flagBits 0 0 0 0 0) := by decide

theorem test_jmp_at_the_top_of_memory :
    after (start 0xFFFF [(0x0000, 0x34), (0x0001, 0x12), (0xFFFF, 0xC3)]) (fun t => (t.pc, t.flags)) =
      some (0x1234, flagBits 0 0 0 0 0) := by decide

theorem test_jz_0150_taken :
    after { start 0x0100 [(0x0100, 0xCA), (0x0101, 0x50), (0x0102, 0x01)] with flags := flagBits 0 1 0 0 0 }
        (fun t => (t.pc, t.flags)) =
      some (0x0150, flagBits 0 1 0 0 0) := by decide

theorem test_jz_0150_not_taken :
    after { start 0x0100 [(0x0100, 0xCA), (0x0101, 0x50), (0x0102, 0x01)] with flags := flagBits 0 0 0 0 0 }
        (fun t => (t.pc, t.flags)) =
      some (0x0103, flagBits 0 0 0 0 0) := by decide

theorem test_call_2000 :
    after { start 0x0100 [(0x0100, 0xCD), (0x0102, 0x20)] with sp := 0x2400 }
        (fun t => (t.pc, t.sp, t.readByte 0x23FE, t.readByte 0x23FF, t.flags)) =
      some (0x2000, 0x23FE, 0x03, 0x01, flagBits 0 0 0 0 0) := by decide

theorem test_call_2000_sp_0001 :
    after { start 0x0100 [(0x0100, 0xCD), (0x0102, 0x20)] with sp := 0x0001 }
        (fun t => (t.pc, t.sp, t.readByte 0x0000, t.readByte 0xFFFF, t.flags)) =
      some (0x2000, 0xFFFF, 0x01, 0x03, flagBits 0 0 0 0 0) := by decide

theorem test_cnz_2000_not_taken :
    after { start 0x0100 [(0x0100, 0xC4), (0x0102, 0x20)] with sp := 0x2400, flags := flagBits 0 1 0 0 0 }
        (fun t => (t.pc, t.flags)) =
      some (0x0103, flagBits 0 1 0 0 0) := by decide

theorem test_cm_2000_taken :
    after { start 0x0100 [(0x0100, 0xFC), (0x0102, 0x20)] with sp := 0x2400, flags := flagBits 1 0 0 0 0 }
        (fun t => (t.pc, t.sp, t.readByte 0x23FE, t.readByte 0x23FF, t.flags)) =
      some (0x2000, 0x23FE, 0x03, 0x01, flagBits 1 0 0 0 0) := by decide

theorem test_ret :
    after { start 0x0100 [(0x0100, 0xC9), (0x23FE, 0x03), (0x23FF, 0x01)] with sp := 0x23FE }
        (fun t => (t.pc, t.sp, t.flags)) =
      some (0x0103, 0x2400, flagBits 0 0 0 0 0) := by decide

theorem test_ret_sp_ffff :
    after { start 0x0100 [(0x0000, 0x12), (0x0100, 0xC9), (0xFFFF, 0x34)] with sp := 0xFFFF }
        (fun t => (t.pc, t.sp, t.flags)) =
      some (0x1234, 0x0001, flagBits 0 0 0 0 0) := by decide

theorem test_rpo_taken :
    after { start 0x0100 [(0x0100, 0xE0), (0x23FE, 0x03), (0x23FF, 0x01)] with sp := 0x23FE, flags := flagBits 0 0 0 0 0 }
        (fun t => (t.pc, t.sp, t.flags)) =
      some (0x0103, 0x2400, flagBits 0 0 0 0 0) := by decide

theorem test_rc_not_taken :
    after { start 0x0100 [(0x0100, 0xD8), (0x23FE, 0x03), (0x23FF, 0x01)] with sp := 0x23FE, flags := flagBits 0 0 0 0 0 }
        (fun t => (t.pc, t.flags)) =
      some (0x0101, flagBits 0 0 0 0 0) := by decide

theorem test_pchl :
    after { start 0x0100 [(0x0100, 0xE9)] with h := 0x41, l := 0x3E } (fun t => (t.pc, t.flags)) =
      some (0x413E, flagBits 0 0 0 0 0) := by decide

theorem test_rst_1 :
    after { start 0x0150 [(0x0150, 0xCF)] with sp := 0x2400 }
        (fun t => (t.pc, t.sp, t.readByte 0x23FE, t.readByte 0x23FF, t.flags)) =
      some (0x0008, 0x23FE, 0x51, 0x01, flagBits 0 0 0 0 0) := by decide

theorem test_rst_7_at_ffff :
    after { start 0xFFFF [(0xFFFF, 0xFF)] with sp := 0x2400 }
        (fun t => (t.pc, t.sp, t.readByte 0x23FE, t.readByte 0x23FF, t.flags)) =
      some (0x0038, 0x23FE, 0x00, 0x00, flagBits 0 0 0 0 0) := by decide

/-! ## Stack: rows of 95_test_vectors.md, part 2 -/

theorem test_push_d :
    after { start 0x0100 [(0x0100, 0xD5)] with d := 0x8F, e := 0x9D, sp := 0x3A2C }
        (fun t => (t.pc, t.sp, t.readByte 0x3A2A, t.readByte 0x3A2B, t.flags)) =
      some (0x0101, 0x3A2A, 0x9D, 0x8F, flagBits 0 0 0 0 0) := by decide

theorem test_push_b_sp_0001 :
    after { start 0x0100 [(0x0100, 0xC5)] with b := 0x12, c := 0x34, sp := 0x0001 }
        (fun t => (t.pc, t.sp, t.readByte 0x0000, t.readByte 0xFFFF, t.flags)) =
      some (0x0101, 0xFFFF, 0x12, 0x34, flagBits 0 0 0 0 0) := by decide

theorem test_push_psw_all_flags_1 :
    after { start 0x0100 [(0x0100, 0xF5)] with a := 0xAA, sp := 0x2400, flags := flagBits 1 1 1 1 1 }
        (fun t => (t.pc, t.sp, t.readByte 0x23FE, t.readByte 0x23FF, t.flags)) =
      some (0x0101, 0x23FE, 0xD7, 0xAA, flagBits 1 1 1 1 1) := by decide

theorem test_push_psw_reset_flags :
    after { start 0x0100 [(0x0100, 0xF5)] with sp := 0x2400 }
        (fun t => (t.pc, t.sp, t.readByte 0x23FE, t.readByte 0x23FF, t.flags)) =
      some (0x0101, 0x23FE, 0x02, 0x00, flagBits 0 0 0 0 0) := by decide

theorem test_pop_h :
    after { start 0x0100 [(0x0100, 0xE1), (0x1239, 0x3D), (0x123A, 0x93)] with sp := 0x1239 }
        (fun t => (t.h, t.l, t.pc, t.sp, t.flags)) =
      some (0x93, 0x3D, 0x0101, 0x123B, flagBits 0 0 0 0 0) := by decide

theorem test_pop_d_sp_ffff :
    after { start 0x0100 [(0x0000, 0xAB), (0x0100, 0xD1), (0xFFFF, 0xCD)] with sp := 0xFFFF }
        (fun t => (t.d, t.e, t.pc, t.sp, t.flags)) =
      some (0xAB, 0xCD, 0x0101, 0x0001, flagBits 0 0 0 0 0) := by decide

theorem test_pop_psw_of_28 :
    after { start 0x0100 [(0x0100, 0xF1), (0x2C00, 0x28), (0x2C01, 0x11)] with sp := 0x2C00, flags := flagBits 1 0 0 0 1 }
        (fun t => (t.a, t.pc, t.sp, t.flags)) =
      some (0x11, 0x0101, 0x2C02, flagBits 0 0 0 0 0) := by decide

theorem test_pop_psw_of_ff :
    after { start 0x0100 [(0x0100, 0xF1), (0x2C00, 0xFF)] with sp := 0x2C00 } (fun t => (t.a, t.pc, t.sp, t.flags)) =
      some (0x00, 0x0101, 0x2C02, flagBits 1 1 1 1 1) := by decide

theorem test_xthl :
    after { start 0x0100 [(0x0100, 0xE3), (0x10AD, 0xF0), (0x10AE, 0x0D)] with sp := 0x10AD, h := 0x0B, l := 0x3C }
        (fun t => (t.h, t.l, t.pc, t.readByte 0x10AD, t.readByte 0x10AE, t.flags)) =
      some (0x0D, 0xF0, 0x0101, 0x3C, 0x0B, flagBits 0 0 0 0 0) := by decide

theorem test_xthl_sp_ffff :
    after { start 0x0100 [(0x0000, 0x0D), (0x0100, 0xE3), (0xFFFF, 0xF0)] with sp := 0xFFFF, h := 0x0B, l := 0x3C }
        (fun t => (t.h, t.l, t.pc, t.readByte 0x0000, t.readByte 0xFFFF, t.flags)) =
      some (0x0D, 0xF0, 0x0101, 0x0B, 0x3C, flagBits 0 0 0 0 0) := by decide

theorem test_sphl :
    after { start 0x0100 [(0x0100, 0xF9)] with h := 0x50, l := 0x6C } (fun t => (t.pc, t.sp, t.flags)) =
      some (0x0101, 0x506C, flagBits 0 0 0 0 0) := by decide

/-! ## I/O and control: rows of 95_test_vectors.md, part 2 -/

theorem test_in_10 :
    after { start 0x0100 [(0x0100, 0xDB), (0x0101, 0x10)] with flags := flagBits 0 1 0 0 0 }
        (fun t => (t.flags, t.pc)) =
      some (flagBits 0 1 0 0 0, 0x0102) := by decide

theorem test_out_01 :
    after { start 0x0100 [(0x0100, 0xD3), (0x0101, 0x01)] with a := 0x41 } (fun t => (t.pc, t.flags, t.io)) =
      some (0x0102, flagBits 0 0 0 0 0, [.output 0x01 0x41]) := by decide

theorem test_ei :
    after (start 0x0100 [(0x0100, 0xFB)]) (fun t => (t.pc, t.inte, t.flags)) =
      some (0x0101, true, flagBits 0 0 0 0 0) := by decide

theorem test_ei_2 :
    after { start 0x0100 [(0x0100, 0xFB)] with inte := true } (fun t => (t.pc, t.inte, t.flags)) =
      some (0x0101, true, flagBits 0 0 0 0 0) := by decide

theorem test_di :
    after { start 0x0100 [(0x0100, 0xF3)] with inte := true } (fun t => (t.pc, t.inte, t.flags)) =
      some (0x0101, false, flagBits 0 0 0 0 0) := by decide

theorem test_hlt :
    after (start 0x0105 [(0x0105, 0x76)]) (fun t => (t.pc, t.halted, t.flags)) =
      some (0x0106, true, flagBits 0 0 0 0 0) := by decide

theorem test_nop :
    after (start 0x0100 []) (fun t => (t.pc, t.flags)) =
      some (0x0101, flagBits 0 0 0 0 0) := by decide

theorem test_nop_at_ffff :
    after (start 0xFFFF []) (fun t => (t.pc, t.flags)) =
      some (0x0000, flagBits 0 0 0 0 0) := by decide

/-! ## Memory forms without a row of their own, by hand from R157, R160, R163, R195 and R198 -/

/-- 0x01 + 0xFF + 1 = 0x101. -/
theorem test_adc_m :
    after { start 0x0100 [(0x0100, 0x8E), (0x2000, 0xFF)] with a := 0x01, h := 0x20, flags := flagBits 0 0 0 0 1 }
        (fun t => (t.a, t.pc, t.flags)) =
      some (0x01, 0x0101, flagBits 0 0 1 0 1) := by decide

/-- 0x10 - 0x01 = 0x0F: a borrow from bit 4, so AC 0; four 1 bits. -/
theorem test_sub_m :
    after { start 0x0100 [(0x0100, 0x96), (0x2000, 0x01)] with a := 0x10, h := 0x20, flags := flagBits 0 0 0 0 1 }
        (fun t => (t.a, t.pc, t.flags)) =
      some (0x0F, 0x0101, flagBits 0 0 0 1 0) := by decide

/-- 0x10 - 0x0F - 1 = 0x00: a borrow from bit 4, so AC 0. -/
theorem test_sbb_m :
    after { start 0x0100 [(0x0100, 0x9E), (0x2000, 0x0F)] with a := 0x10, h := 0x20, flags := flagBits 0 0 0 0 1 }
        (fun t => (t.a, t.pc, t.flags)) =
      some (0x00, 0x0101, flagBits 0 1 0 1 0) := by decide

/-- 0xF0 XOR 0x0F = 0xFF: eight 1 bits, AC and CY cleared. -/
theorem test_xra_m :
    after { start 0x0100 [(0x0100, 0xAE), (0x2000, 0x0F)] with a := 0xF0, h := 0x20, flags := flagBits 0 0 1 0 1 }
        (fun t => (t.a, t.pc, t.flags)) =
      some (0xFF, 0x0101, flagBits 1 0 0 1 0) := by decide

/-- 0x11 OR 0x06 = 0x17: four 1 bits, AC and CY cleared. -/
theorem test_ora_m :
    after { start 0x0100 [(0x0100, 0xB6), (0x2000, 0x06)] with a := 0x11, h := 0x20, flags := flagBits 0 0 1 0 1 }
        (fun t => (t.a, t.pc, t.flags)) =
      some (0x17, 0x0101, flagBits 0 0 0 1 0) := by decide

/-! ## The Byte IN receives, the fault, and the halt and interrupt rows of 95_test_vectors.md, part 2 -/

/-- Whatever Byte the I/O side answers is in A and in the history. -/
theorem test_in_10_answer :
    after (start 0x0100 [(0x0100, 0xDB), (0x0101, 0x10)]) (fun t => (t.a, t.io)) =
      some (Config.ioIn [] 0x10, [.input 0x10 (Config.ioIn [] 0x10)]) := rfl

/-- The fault row, for each of the twelve values: the Byte and the PC it was fetched at. -/
theorem test_unimplemented_fault :
    ∀ v ∈ unimplementedOpcodes,
      faultOf { start 0x0100 [(0x0100, v), (0x0101, 0x34), (0x0102, 0x12)] with a := 0x11, sp := 0x2400 } =
        some (.unimplementedOpcode v 0x0100) := by decide

theorem test_held :
    step { start 0x0100 [] with halted := true } = .next { start 0x0100 [] with halted := true } := rfl

theorem test_held_request_masked :
    step { start 0x0100 [] with halted := true, pending := some 0xCF } =
      .next { start 0x0100 [] with halted := true, pending := some 0xCF } := rfl

theorem test_accept_rst_1_while_halted :
    after { start 0x0107 [] with halted := true, pending := some 0xCF, inte := true, sp := 0x2400 }
        (fun t => (t.pc, t.sp, t.inte, t.halted, t.pending, t.mem)) =
      some (0x0008, 0x23FE, false, false, none, [(0x23FE, 0x07), (0x23FF, 0x01)]) := rfl

theorem test_accept_rst_2_while_running :
    after { start 0x0100 [(0x0100, 0x3C)] with pending := some 0xD7, inte := true, sp := 0x2400, a := 0x01 }
        (fun t => (t.a, t.pc, t.sp, t.inte, t.pending, t.mem)) =
      some (0x01, 0x0010, 0x23FE, false, none, [(0x0100, 0x3C), (0x23FF, 0x01)]) := rfl

theorem test_accept_rst_2_inte_kept :
    after { State.launch ⟨0x0100, false⟩ [(0x0100, 0x3C)] with pending := some 0xD7, inte := true, sp := 0x2400 }
        (fun t => (t.pc, t.sp, t.inte, t.pending, t.mem)) =
      some (0x0010, 0x23FE, true, none, [(0x0100, 0x3C), (0x23FF, 0x01)]) := rfl

theorem test_request_masked_while_running :
    after { start 0x0100 [(0x0100, 0x3C)] with pending := some 0xD7, a := 0x01 } (fun t => (t.a, t.pc, t.pending)) =
      some (0x02, 0x0101, some 0xD7) := by decide

theorem test_ei_with_request_pending :
    after { start 0x0100 [(0x0100, 0xFB)] with pending := some 0xD7 } (fun t => (t.pc, t.inte, t.pending)) =
      some (0x0101, true, some 0xD7) := by decide

theorem test_injected_nop :
    after { start 0x0100 [(0x0100, 0x3C)] with pending := some 0x00, inte := true, a := 0x01 }
        (fun t => (t.a, t.pc, t.inte, t.pending)) =
      some (0x01, 0x0100, false, none) := by decide

theorem test_injected_hlt :
    after { start 0x0100 [(0x0100, 0x3C)] with pending := some 0x76, inte := true }
        (fun t => (t.pc, t.inte, t.halted, t.pending)) =
      some (0x0100, false, true, none) := by decide

theorem test_injected_ei :
    after { start 0x0100 [(0x0100, 0x3C)] with pending := some 0xFB, inte := true, halted := true }
        (fun t => (t.pc, t.inte, t.halted, t.pending)) =
      some (0x0100, true, false, none) := by decide

theorem test_injected_inr_a :
    after { start 0x0100 [] with pending := some 0x3C, inte := true, a := 0x0F }
        (fun t => (t.a, t.flags.ac, t.pc, t.inte, t.pending)) =
      some (0x10, true, 0x0100, false, none) := by decide

theorem test_injected_08 :
    step { start 0x0100 [(0x0100, 0x3C)] with pending := some 0x08, inte := true, halted := true } =
      .fault (.unimplementedOpcode 0x08 0x0100) := rfl

theorem test_injected_call_refused :
    step { start 0x0100 [] with pending := some 0xCD, inte := true } = .refused (.injectedMultiByte 0xCD) := rfl

/-! ## Host actions: R303 (a newer request replaces an older one) and R341 -/

theorem test_deliver_replaces : (applyHost (.deliver 0xD7) { start 0 [] with pending := some 0xCF }).pending = some 0xD7 := by
  decide

theorem test_external_reset :
    applyHost .externalReset { start 0x0100 [(0x2000, 0x01)] with a := 1, pc := 7, halted := true, inte := true } =
      start 0x0100 [(0x2000, 0x01)] := by decide

/-! ## Cycle counts (R349, R350) -/

theorem test_cycles :
    cycles (.movRR .b .a) false = some 5 ∧ cycles .hlt false = some 7 ∧ cycles (.call 0) false = some 17 ∧
      cycles (.ccc .z 0) true = some 17 ∧ cycles (.ccc .z 0) false = some 11 ∧ cycles .xthl false = some 18 ∧
      cycles .unimpl08 false = none := by decide

/-! ## An instruction placed where the next step fetches -/

/-- 0x00038D21 in the table's numbering is 21 8D 03: LXI H,0x038D. -/
theorem test_table_word : decodeTableWord 24 0x038D21 = some (.lxi .hl 0x038D) := rfl

theorem test_with_fetch_word :
    after (State.reset.withFetchWord 24 0x038D21) (fun t => (t.h, t.l, t.pc)) = some (0x03, 0x8D, 0x0003) := by decide

/-- A row whose operand Bytes the table gives no bits: they are zero. -/
theorem test_with_fetch_word_short :
    after { State.reset.withFetchWord 8 0xC3 with sp := 0x10 } (fun t => t.pc) = some 0x0000 := by decide

/-! ## Witnesses: states and operands that meet the hypotheses of the statements, clause by clause -/

/-- AddThenDaaIsDecimalAddition, all three operand forms, at 99 and 99. -/
theorem witness_add_then_daa :
    let s : State := { start 0 [(0x0000, 0x99)] with a := 0x99, b := 0x99 }
    (99 < 100) ∧ s.a = bcd 99 ∧ s.reg .b = bcd 99 ∧ s.readByte s.hl = bcd 99 := by decide

/-- ConditionalCallAndRestart and ReturnsPopPc: each condition holds somewhere and fails somewhere. -/
theorem witness_conditions :
    ([Cond.nz, .nc, .po, .p].all fun cc => (start 0 []).flags.holds cc && !(flagBits 1 1 1 1 1).holds cc) = true ∧
      ([Cond.z, .c, .pe, .m].all fun cc => !(start 0 []).flags.holds cc && (flagBits 1 1 1 1 1).holds cc) = true := by decide

/-- PopUndoesPush. -/
theorem witness_pop_undoes_push : RegPair.bc ≠ .sp ∧ RegPair.de ≠ .sp ∧ RegPair.hl ≠ .sp := by decide

/-- UnimplementedOpcodeFaults, the step clause, and StepRunsDecodedInstruction for an unimplemented value. -/
theorem witness_unimplemented_step :
    let s := start 0xFFFF [(0xFFFF, 0xFD)]
    s.acceptable = none ∧ s.halted = false ∧ s.readByte s.pc ∈ unimplementedOpcodes ∧
      decode [s.readByte s.pc, s.readByte (s.pc + 1), s.readByte (s.pc + 2)] = .ok (.unimplFD, [0, 0]) := by decide

/-- OnlyUnimplementedOpcodesFault: a fetched one (`test_unimplemented_fault`), an injected one, and a step that does not fault. -/
theorem witness_next_opcode :
    nextOpcode (start 0 [(0x0000, 0x08)]) = some 0x08 ∧
      nextOpcode { start 0 [] with inte := true, pending := some 0xDD } = some 0xDD ∧
      nextOpcode (start 0 []) = some 0x00 ∧ nextOpcode { start 0 [] with halted := true } = none := by decide

/-- OnlyInjectedMultiByteRefused: a Byte of a two-Byte and one of a three-Byte instruction. -/
theorem witness_injected_multi_byte :
    let s : State := { start 0 [] with inte := true, pending := some 0xDB }
    s.inte = true ∧ s.pending = some 0xDB ∧ decode [0xDB] = .error (.truncated 0xDB) ∧
      decode [0xCD] = .error (.truncated 0xCD) := ⟨rfl, rfl, rfl, rfl⟩

/-- AcceptanceExecutesInjectedInstruction. -/
theorem witness_acceptance :
    let s : State := { start 0 [] with inte := true, pending := some 0x3C }
    s.inte = true ∧ s.pending = some 0x3C ∧ decode [0x3C] = .ok (.inrR .a, []) ∧ (0x3C : Byte) ∉ unimplementedOpcodes :=
  ⟨rfl, rfl, rfl, by decide⟩

/-- InterruptRestartSavesPc, for RST 0 and RST 7. -/
theorem witness_interrupt_restart :
    let s : State := { start 0 [] with inte := true, pending := some 0xC7 }
    let u : State := { start 0 [] with inte := true, pending := some 0xFF, halted := true }
    s.inte = true ∧ s.pending = some (0b11#2 ++ 0#3 ++ 0b111#3) ∧
      u.inte = true ∧ u.pending = some (0b11#2 ++ 7#3 ++ 0b111#3) := by decide

/-- HeldForEver: no request, and a masked request. -/
theorem witness_held_for_ever :
    let s : State := { start 0 [] with halted := true, inte := true }
    let u : State := { start 0 [] with halted := true, pending := some 0xFF }
    (s.halted = true ∧ s.pending = none) ∧ u.halted = true ∧ u.inte = false ∧ u.pending ≠ none := by decide

/-- HaltMachineTransitions, the first clause: a step that enters Halted. -/
theorem witness_enters_halted :
    (start 0 [(0x0000, 0x76)]).halted = false ∧ after (start 0 [(0x0000, 0x76)]) (fun t => t.halted) = some true := by decide

/-- HaltMachineTransitions, the second clause: a step that leaves Halted. -/
theorem witness_leaves_halted :
    let s : State := { start 0 [] with halted := true, inte := true, pending := some 0x00 }
    s.halted = true ∧ after s (fun t => t.halted) = some false := by decide

/-- InteAndPendingWriters: EI fetched, DI injected, an acceptance that keeps INTE, and a step that writes neither. -/
theorem witness_inte_and_pending :
    after (start 0 [(0x0000, 0xFB)]) (fun t => t.inte) = some true ∧
      after { start 0 [] with inte := true, pending := some 0xF3 } (fun t => (t.inte, t.pending)) = some (false, none) ∧
      after { State.launch ⟨0, false⟩ [] with inte := true, pending := some 0x00 } (fun t => (t.inte, t.pending)) =
        some (true, none) ∧
      after { start 0 [] with pending := some 0xCF } (fun t => (t.inte, t.pending)) = some (false, some 0xCF) := by decide

/-- OnlyInOutReachPorts: OUT, and an instruction that makes no transaction. -/
theorem witness_ports :
    nextOpcode (start 0 [(0x0000, 0xD3), (0x0001, 0x10)]) = some 0xD3 ∧
      after (start 0 [(0x0000, 0xD3), (0x0001, 0x10)]) (fun t => t.io) = some [.output 0x10 0x00] ∧
      nextOpcode (start 0 []) = some 0x00 ∧ after (start 0 []) (fun t => t.io) = some [] := by decide

/-- OnlyInOutReachPorts: IN. -/
theorem witness_ports_in :
    nextOpcode (start 0 [(0x0000, 0xDB), (0x0001, 0x10)]) = some 0xDB ∧
      after (start 0 [(0x0000, 0xDB), (0x0001, 0x10)]) (fun t => t.io) = some [.input 0x10 (Config.ioIn [] 0x10)] :=
  ⟨rfl, rfl⟩

/-- PairsAreRegisterViews, the last clause: a register outside each pair. -/
theorem witness_outside_pairs :
    Reg.a ∉ pairRegs .bc ∧ Reg.b ∉ pairRegs .de ∧ Reg.e ∉ pairRegs .hl ∧ Reg.h ∉ pairRegs .sp := by decide

/-- StoreThenLoadWordWraps: a state after the store, at 0xFFFF, and another state with its memory. -/
theorem witness_store_then_load :
    let t := (start 0 []).writeWord 0xFFFF 0xAE29
    let r : State := { start 7 t.mem with a := 1 }
    r.mem = t.mem ∧ r ≠ t ∧ t.readByte 0xFFFF = 0x29 ∧ t.readByte 0x0000 = 0xAE := by decide

/-- ResetState: a launch and an external reset of a state that is not one. -/
theorem witness_reset :
    start 0x0100 [(0x2000, 0x01)] =
        applyHost .externalReset { start 0x0100 [(0x2000, 0x01)] with a := 1, halted := true } ∧
      start 0x0100 [(0x2000, 0x01)] ≠ { start 0x0100 [(0x2000, 0x01)] with a := 1, halted := true } := by decide

/-- StepKeepsInvariant: a state with the invariant and a step that writes memory. -/
theorem witness_step_keeps_invariant :
    Inv (start 0 [(0x0000, 0x32), (0x0001, 0xFF), (0x0002, 0xFF)]) ∧
      after { start 0 [(0x0000, 0x32), (0x0001, 0xFF), (0x0002, 0xFF)] with a := 0x01 } (fun t => t.readByte 0xFFFF) =
        some 0x01 := ⟨rfl, by decide⟩

/-- RunsKeepInvariantAndParams: a delivery and two steps, from a state with the invariant. -/
theorem witness_runs :
    Inv { start 0 [] with inte := true } ∧
      runEvents [.host (.deliver 0x3C), .step, .step] { start 0 [] with inte := true } =
        .next { start 1 [] with a := 1, params := ⟨0, true⟩ } := ⟨rfl, rfl⟩

/-- DecodeUndoesEncode and StepRunsEncodedInstruction: a well-formed instruction of each length, and its Bytes across the top of
memory. -/
theorem witness_encoded :
    (Instr.ldax .de).wellFormed = true ∧ (Instr.mviM 0xFF).wellFormed = true ∧ (Instr.lxi .sp 0xFFFF).wellFormed = true ∧
      let s := start 0xFFFE [(0x0000, 0xAB), (0xFFFE, 0x21), (0xFFFF, 0xCD)]
      let i := Instr.lxi .hl 0xABCD
      s.acceptable = none ∧ s.halted = false ∧ i.wellFormed = true ∧ i.unimplemented = none ∧ i.size = 3 ∧
        ∀ k, k < 3 → (encode i)[k]? = some (s.readByte (s.pc + BitVec.ofNat 16 k)) := by decide

/-- EncodeUndoesDecode and OpcodeDecidesLength: an instruction of each length, with Bytes left over. -/
theorem witness_decoded :
    decode [0x00, 0x55] = .ok (.nop, [0x55]) ∧ decode [0x06, 0x80, 0x55] = .ok (.mviR .b 0x80, [0x55]) ∧
      decode [0xCD, 0x00, 0x20, 0x55] = .ok (.call 0x2000, [0x55]) ∧
      (0x00 : Byte) ∉ unimplementedOpcodes ∧ (0x06 : Byte) ∉ unimplementedOpcodes ∧ (0xCD : Byte) ∉ unimplementedOpcodes :=
  ⟨rfl, rfl, rfl, by decide, by decide, by decide⟩

/-- DecoderIsTotal: a Byte in the list and one outside it. -/
theorem witness_decoder_is_total : (0xED : Byte) ∈ unimplementedOpcodes ∧ (0xFF : Byte) ∉ unimplementedOpcodes := by decide

/-- StepRunsDecodedInstruction. -/
theorem witness_step_runs :
    let s := start 0xFFFF [(0x0000, 0x34), (0x0001, 0x12), (0xFFFF, 0xC3)]
    s.acceptable = none ∧ s.halted = false ∧
      decode [s.readByte s.pc, s.readByte (s.pc + 1), s.readByte (s.pc + 2)] = .ok (.jmp 0x1234, []) := ⟨rfl, rfl, rfl⟩

/-- CycleCountDependsOnTaken: an instruction whose count depends on the condition, and one whose count does not. -/
theorem witness_cycles :
    (Instr.rcc .z).unimplemented = none ∧ cycles (.rcc .z) true ≠ cycles (.rcc .z) false ∧
      (Instr.jcc .z 0).unimplemented = none ∧ cycles (.jcc .z 0) true = cycles (.jcc .z 0) false := by decide

end Sys2Proof.Tests
end

section
/-! PROOFS. The statements of 10_state.md: registers and register pairs. -/

namespace Sys2Proof.Proofs

open Sys2Proof Sys2Proof.Machine

/-- Settles O46. A pair joins the Bytes of its two registers and a write to it splits the Word into them, so each clause about
values is the arithmetic of joining or splitting a Word; that no other register changes is the frame lemma of `setPair`. -/
theorem pairsAreRegisterViews : Obligations.PairsAreRegisterViews := by
  intro s w
  have split : (hiByte w).toNat = w.toNat / 256 ∧ (loByte w).toNat = w.toNat % 256 :=
    ⟨toNat_hiByte w, toNat_loByte w⟩
  refine ⟨?bc, ?de, ?hl, split, split, split, ?others⟩
  case bc => exact toNat_joinBytes s.b s.c
  case de => exact toNat_joinBytes s.d s.e
  case hl => exact toNat_joinBytes s.h s.l
  case others => exact fun _ _ outside => s.reg_setPair_of_notMem outside w

end Sys2Proof.Proofs
end

section
/-!
PROOFS. The statements of 40_data_transfer.md. Two things are shared by every one of them and come first: an instruction of the
table has the encoding its rule writes, and each operation on the state leaves everything outside what it names unchanged.
-/

namespace Sys2Proof.Proofs

open Sys2Proof Sys2Proof.Machine

/-! ## Encodings -/

/-- The opcode an instruction is encoded with selects the form that gives the instruction back from its operand Bytes: none, a
Byte, or a Word low Byte first (R91). The case split is by the operand fields the opcode Byte holds. -/
theorem decodeOpcode_encodeOpcode_cases {i : Instr} (hw : i.wellFormed = true) :
    (decodeOpcode (encodeOpcode i) = .one i ∧ i.operandBytes = []) ∨
      (∃ k d8, decodeOpcode (encodeOpcode i) = .imm k ∧ k d8 = i ∧ i.operandBytes = [d8]) ∨
      ∃ k d16, decodeOpcode (encodeOpcode i) = .addr k ∧ k d16 = i ∧ i.operandBytes = [loByte d16, hiByte d16] := by
  cases i
  case mviR dst d8 => cases dst <;> exact .inr (.inl ⟨_, _, rfl, rfl, rfl⟩)
  case mviM | adi | aci | sui | sbi | ani | xri | ori | cpi | inPort | outPort =>
    exact .inr (.inl ⟨_, _, rfl, rfl, rfl⟩)
  case lxi rp d16 => cases rp <;> exact .inr (.inr ⟨_, _, rfl, rfl, rfl⟩)
  case jcc cc a16 | ccc cc a16 => cases cc <;> exact .inr (.inr ⟨_, _, rfl, rfl, rfl⟩)
  case lda | sta | lhld | shld | jmp | call => exact .inr (.inr ⟨_, _, rfl, rfl, rfl⟩)
  case movRR dst src => cases dst <;> cases src <;> exact .inl ⟨rfl, rfl⟩
  case movRM r | movMR r | inrR r | dcrR r | addR r | adcR r | subR r | sbbR r | anaR r | xraR r | oraR r | cmpR r =>
    cases r <;> exact .inl ⟨rfl, rfl⟩
  case inx rp | dcx rp | dad rp => cases rp <;> exact .inl ⟨rfl, rfl⟩
  case ldax rp | stax rp =>
    cases rp with
    | bc | de => exact .inl ⟨rfl, rfl⟩
    | hl | sp => cases hw
  case push rp | pop rp =>
    cases rp with
    | bc | de | hl => exact .inl ⟨rfl, rfl⟩
    | sp => cases hw
  case rcc cc => cases cc <;> exact .inl ⟨rfl, rfl⟩
  case rst n =>
    obtain ⟨k, hk, rfl⟩ : ∃ k, k < 8 ∧ n = BitVec.ofNat 3 k := ⟨n.toNat, n.isLt, by simp⟩
    interval_cases k <;> exact .inl ⟨rfl, rfl⟩
  all_goals exact .inl ⟨rfl, rfl⟩

/-- The decoder reads back what the encoder wrote, whatever Bytes follow. -/
theorem decode_encode_append {i : Instr} (hw : i.wellFormed = true) (rest : List Byte) :
    decode (encode i ++ rest) = .ok (i, rest) := by
  obtain ⟨hd, hb⟩ | ⟨k, d8, hd, rfl, hb⟩ | ⟨k, d16, hd, rfl, hb⟩ := decodeOpcode_encodeOpcode_cases hw
  all_goals simp [encode, hb, decode, hd]

theorem encode_length (i : Instr) : (encode i).length = i.size := by
  cases i <;> rfl

/-- Every implemented instruction has its encoding, so a rule's Bytes have only to be those `encode` writes. -/
theorem hasEncoding_encode {i : Instr} (hw : i.wellFormed = true) (hi : i.unimplemented = none) :
    HasEncoding i (encode i) :=
  ⟨rfl, decode_encode_append hw, (fetchAdvance_of_implemented hi).trans (encode_length i).symm⟩

/-! ## Frames of the state's operations -/

section Frames

variable (s : State)

theorem changesOnly_setReg (r : Reg) (v : Byte) : ChangesOnly { regs := [r] } s (s.setReg r v) where
  regs _ hr := s.reg_setReg_ne (List.ne_of_not_mem_cons hr) v
  flags f _ := congrArg (flagOf · f) (s.setReg_flags r v)
  mem := fun x _ => State.readByte_congr (s.setReg_mem r v) x
  pc _ := s.setReg_pc r v
  sp _ := s.setReg_sp r v
  inte _ := s.setReg_inte r v
  halted _ := s.setReg_halted r v
  pending _ := s.setReg_pending r v
  io _ := s.setReg_io r v
  params := s.setReg_params r v

theorem changesOnly_setPair (rp : RegPair) (w : Word) :
    ChangesOnly { regs := pairRegs rp, sp := decide (rp = .sp) } s (s.setPair rp w) where
  regs _ hr := s.reg_setPair_of_notMem hr w
  flags f _ := congrArg (flagOf · f) (s.setPair_flags rp w)
  mem := fun x _ => State.readByte_congr (s.setPair_mem rp w) x
  pc _ := s.setPair_pc rp w
  sp hsp := s.sp_setPair_of_ne (of_decide_eq_false hsp) w
  inte _ := s.setPair_inte rp w
  halted _ := s.setPair_halted rp w
  pending _ := s.setPair_pending rp w
  io _ := s.setPair_io rp w
  params := s.setPair_params rp w

/-- An update that only replaces memory is framed by the addresses where the new memory reads differently. -/
theorem changesOnly_mem {xs : List Word} {m : Memory}
    (h : ∀ y, y ∉ xs → { s with mem := m }.readByte y = s.readByte y) : ChangesOnly { mem := xs } s { s with mem := m } where
  regs r _ := by cases r <;> rfl
  flags _ _ := rfl
  mem := h
  pc _ := rfl
  sp _ := rfl
  inte _ := rfl
  halted _ := rfl
  pending _ := rfl
  io _ := rfl
  params := rfl

theorem changesOnly_writeByte (x : Word) (v : Byte) : ChangesOnly { mem := [x] } s (s.writeByte x v) :=
  changesOnly_mem s fun _ hy => s.readByte_writeByte_ne (List.ne_of_not_mem_cons hy) v

theorem changesOnly_writeWord (x w : Word) : ChangesOnly { mem := [x, x + 1] } s (s.writeWord x w) :=
  changesOnly_mem s fun y hy => by
    obtain ⟨hlow, hhigh⟩ : y ≠ x ∧ y ≠ x + 1 := by simpa using hy
    exact (s.readByte_writeWord x w y).trans (by rw [if_neg hhigh, if_neg hlow])

@[simp] theorem readByte_writeWord_low (x w : Word) : (s.writeWord x w).readByte x = loByte w := by
  rw [State.readByte_writeWord, if_neg (word_add_one_ne x).symm, if_pos rfl]

@[simp] theorem readByte_writeWord_high (x w : Word) : (s.writeWord x w).readByte (x + 1) = hiByte w := by
  rw [State.readByte_writeWord, if_pos rfl]

end Frames

/-! ## The instructions: each is one of the operations above, on operands read before it -/

/-- Settles O1: MOV r1,r2 is one register write. -/
theorem movCopiesRegister : Obligations.MovCopiesRegister := by
  intro dst src s
  exact ⟨hasEncoding_encode rfl rfl,
    s.setReg dst (s.reg src), rfl, s.reg_setReg_self dst _, changesOnly_setReg s dst _⟩

/-- Settles O2: a load from M is one register write, of a Byte read before it, and a store to M one Byte write. -/
theorem movThroughMemoryOperand : Obligations.MovThroughMemoryOperand := by
  refine ⟨fun dst s => ⟨hasEncoding_encode rfl rfl, ?load⟩, fun src s => ⟨hasEncoding_encode rfl rfl, ?store⟩⟩
  case load =>
    exact ⟨s.setReg dst (s.readByte s.hl), rfl, s.reg_setReg_self dst _, changesOnly_setReg s dst _⟩
  case store =>
    exact ⟨s.writeByte s.hl (s.reg src), rfl, s.readByte_writeByte_self s.hl _, changesOnly_writeByte s s.hl _⟩

/-- Settles O3: the same two writes, of the immediate Byte. -/
theorem mviWritesImmediate : Obligations.MviWritesImmediate := by
  refine ⟨fun dst d8 s => ⟨hasEncoding_encode rfl rfl, ?register⟩, fun d8 s => ⟨hasEncoding_encode rfl rfl, ?memory⟩⟩
  case register => exact ⟨s.setReg dst d8, rfl, s.reg_setReg_self dst d8, changesOnly_setReg s dst d8⟩
  case memory => exact ⟨s.writeByte s.hl d8, rfl, s.readByte_writeByte_self s.hl d8, changesOnly_writeByte s s.hl d8⟩

/-- Settles O4: LXI is one pair write, and the Word it writes is the two operand Bytes joined, so splitting it for the two
registers gives the Bytes back. -/
theorem lxiLoadsPair : Obligations.LxiLoadsPair := by
  intro lo hi s
  have high := hiByte_joinBytes hi lo
  have low := loByte_joinBytes hi lo
  refine ⟨fun rp => ?encoding, ⟨_, rfl, high, low, changesOnly_setPair s .bc _⟩,
    ⟨_, rfl, high, low, changesOnly_setPair s .de _⟩, ⟨_, rfl, high, low, changesOnly_setPair s .hl _⟩,
    ⟨_, rfl, toNat_joinBytes hi lo, changesOnly_setPair s .sp _⟩⟩
  have written : encode (.lxi rp (joinBytes hi lo)) = [0b00#2 ++ rp.code ++ 0b0001#4, lo, hi] := by
    simp only [encode, encodeOpcode, Instr.operandBytes, high, low]
  exact written ▸ hasEncoding_encode rfl rfl

/-- Settles O5: LDA writes the register A and STA one Byte. -/
theorem directAccumulatorTransfer : Obligations.DirectAccumulatorTransfer := by
  intro a16 s
  refine ⟨hasEncoding_encode rfl rfl, ?load, hasEncoding_encode rfl rfl, ?store⟩
  case load => exact ⟨s.setReg .a (s.readByte a16), rfl, rfl, changesOnly_setReg s .a _⟩
  case store => exact ⟨s.writeByte a16 s.a, rfl, s.readByte_writeByte_self a16 _, changesOnly_writeByte s a16 _⟩

/-- Settles O6: LHLD writes the pair HL and SHLD one Word. Of a Word in memory the low Byte is at a16 and the high Byte at
a16 + 1, two addresses that differ also where the second wraps. -/
theorem directPairTransfer : Obligations.DirectPairTransfer := by
  intro a16 s
  refine ⟨hasEncoding_encode rfl rfl, ?load, hasEncoding_encode rfl rfl, ?store⟩
  case load =>
    exact ⟨s.setPair .hl (s.readWord a16), rfl, loByte_joinBytes _ _, hiByte_joinBytes _ _,
      changesOnly_setPair s .hl _⟩
  case store =>
    exact ⟨s.writeWord a16 s.hl, rfl, (readByte_writeWord_low s a16 _).trans (loByte_joinBytes s.h s.l),
      (readByte_writeWord_high s a16 _).trans (hiByte_joinBytes s.h s.l), changesOnly_writeWord s a16 _⟩

/-- LDAX at any pair (R131): one register write of a Byte read before it. -/
theorem exec_ldax (s : State) (rp : RegPair) :
    ∃ t, exec (.ldax rp) s = .next t ∧ t.a = s.readByte (s.pair rp) ∧ ChangesOnly { regs := [.a] } s t :=
  ⟨s.setReg .a (s.readByte (s.pair rp)), rfl, rfl, changesOnly_setReg s .a _⟩

/-- STAX at any pair (R132): one Byte write at an address read before it. -/
theorem exec_stax (s : State) (rp : RegPair) :
    ∃ t, exec (.stax rp) s = .next t ∧ t.readByte (s.pair rp) = s.a ∧ ChangesOnly { mem := [s.pair rp] } s t :=
  ⟨s.writeByte (s.pair rp) s.a, rfl, s.readByte_writeByte_self _ _, changesOnly_writeByte s _ _⟩

/-- Settles O7: LDAX and STAX at the two pairs they can name. -/
theorem indirectAccumulatorTransfer : Obligations.IndirectAccumulatorTransfer := by
  intro s
  exact ⟨hasEncoding_encode rfl rfl, hasEncoding_encode rfl rfl, exec_ldax s .bc, exec_ldax s .de,
    hasEncoding_encode rfl rfl, hasEncoding_encode rfl rfl, exec_stax s .bc, exec_stax s .de⟩

/-- The frame of XCHG (R133): of the registers only B, C and A are left out of the exchange. -/
theorem changesOnly_exchange (s : State) :
    ChangesOnly { regs := [.d, .e, .h, .l] } s { s with h := s.d, l := s.e, d := s.h, e := s.l } where
  regs r hr := by
    cases r with
    | a | b | c => rfl
    | d | e | h | l => exact absurd (by decide) hr
  flags _ _ := rfl
  mem _ _ := rfl
  pc _ := rfl
  sp _ := rfl
  inte _ := rfl
  halted _ := rfl
  pending _ := rfl
  io _ := rfl
  params := rfl

/-- Settles O8: exchanging the four registers a second time puts each back, which is the state before as a record. -/
theorem xchgExchangesPairs : Obligations.XchgExchangesPairs := by
  intro s
  exact ⟨hasEncoding_encode rfl rfl, { s with h := s.d, l := s.e, d := s.h, e := s.l }, rfl, rfl, rfl, rfl, rfl,
    changesOnly_exchange s, rfl⟩

end Sys2Proof.Proofs
end

section
/-!
PROOFS. The statements of 41_arithmetic.md. What they share comes first: frames compose and a write to the flags has one, and
the flags of a result say of it what R29 and R30 say.
-/

namespace Sys2Proof.Proofs

open Sys2Proof Sys2Proof.Machine Sys2Proof.Claims

/-! ## Frames: composition, and writes to the flags -/

/-- What may be written by one update followed by another. -/
def unionWrites (w w' : Writes) : Writes where
  regs := w.regs ++ w'.regs
  flags := w.flags ++ w'.flags
  mem := w.mem ++ w'.mem
  pc := w.pc || w'.pc
  sp := w.sp || w'.sp
  inte := w.inte || w'.inte
  halted := w.halted || w'.halted
  pending := w.pending || w'.pending
  io := w.io || w'.io

theorem eq_trans_of_or_eq_false {α : Type} {b b' : Bool} {x y z : α} (h : b = false → y = x) (h' : b' = false → z = y)
    (e : (b || b') = false) : z = x := by
  obtain ⟨hb, hb'⟩ := Bool.or_eq_false_iff.mp e
  exact (h' hb').trans (h hb)

/-- What neither of two updates may write is the same after both as before both. -/
theorem changesOnly_trans {w w' : Writes} {s t u : State} (h : ChangesOnly w s t) (h' : ChangesOnly w' t u) :
    ChangesOnly (unionWrites w w') s u where
  regs r hr := (h'.regs r (hr <| List.mem_append_right _ ·)).trans (h.regs r (hr <| List.mem_append_left _ ·))
  flags f hf := (h'.flags f (hf <| List.mem_append_right _ ·)).trans (h.flags f (hf <| List.mem_append_left _ ·))
  mem x hx := (h'.mem x (hx <| List.mem_append_right _ ·)).trans (h.mem x (hx <| List.mem_append_left _ ·))
  pc := eq_trans_of_or_eq_false h.pc h'.pc
  sp := eq_trans_of_or_eq_false h.sp h'.sp
  inte := eq_trans_of_or_eq_false h.inte h'.inte
  halted := eq_trans_of_or_eq_false h.halted h'.halted
  pending := eq_trans_of_or_eq_false h.pending h'.pending
  io := eq_trans_of_or_eq_false h.io h'.io
  params := h'.params.trans h.params

section FlagFrames

variable (s : State)

/-- An update that only replaces the flags is framed by the names of those that may differ. -/
theorem changesOnly_flags {names : List FlagName} {f : Flags} (h : ∀ n, n ∉ names → flagOf f n = flagOf s.flags n) :
    ChangesOnly { flags := names } s { s with flags := f } where
  regs r _ := by cases r <;> rfl
  flags := h
  mem _ _ := rfl
  pc _ := rfl
  sp _ := rfl
  inte _ := rfl
  halted _ := rfl
  pending _ := rfl
  io _ := rfl
  params := rfl

theorem changesOnly_allFlags (f : Flags) : ChangesOnly { flags := allFlags } s { s with flags := f } :=
  changesOnly_flags s fun n outside => absurd (by cases n <;> decide) outside

theorem changesOnly_resultFlags_keepingCarry (r : Byte) (ac : Bool) :
    ChangesOnly { flags := [.s, .z, .ac, .p] } s { s with flags := resultFlags r ac s.flags.cy } :=
  changesOnly_flags s fun n outside => by
    cases n with
    | cy => rfl
    | s | z | ac | p => exact absurd (by decide) outside

theorem changesOnly_setCy (cy : Bool) : ChangesOnly { flags := [.cy] } s (s.setCy cy) :=
  changesOnly_flags s fun n outside => by
    cases n with
    | cy => exact absurd (by decide) outside
    | s | z | ac | p => rfl

/-- Add8 to A (R150) is a write of all five flags and a write of A. -/
theorem changesOnly_addA (v : Byte) (c : Bool) : ChangesOnly { regs := [.a], flags := allFlags } s (s.addA v c) :=
  changesOnly_trans (changesOnly_allFlags s (add8Flags s.a v c)) (changesOnly_setReg _ .a (add8 s.a v c))

end FlagFrames

/-! ## S, Z and P of a result (R29, R30) -/

/-- The exclusive OR of a list of bits says whether an odd number of them is set. -/
theorem length_filter_mod_two (p : Nat → Bool) (ks : List Nat) :
    (ks.filter p).length % 2 = bit (ks.foldr (fun k acc => p k ^^ acc) false) := by
  induction ks with
  | nil => rfl
  | cons k ks ih =>
    rw [List.foldr_cons]
    cases hk : p k with
    | false => rw [List.filter_cons_of_neg (by simp [hk]), ih, Bool.false_xor]
    | true =>
      rw [List.filter_cons_of_pos hk, List.length_cons, Nat.add_mod, ih, Bool.true_xor]
      cases ks.foldr (fun k acc => p k ^^ acc) false <;> rfl

/-- The two forms of Parity that R29 gives agree: by exclusive OR and by counting. -/
theorem parity_iff_ones_even (v : Byte) : parity v = true ↔ ones v % 2 = 0 := by
  have xors : parity v = !(List.range 8).foldr (fun k acc => v.getLsbD k ^^ acc) false := by
    simp [parity, List.range_succ, Bool.xor_comm]
  rw [xors, ones, length_filter_mod_two]
  cases (List.range 8).foldr (fun k acc => v.getLsbD k ^^ acc) false <;> simp

theorem flagsOf_resultFlags (r : Byte) (ac cy : Bool) : FlagsOf (resultFlags r ac cy) r := by
  refine ⟨getLsbD_seven r, ?zero, ?parity⟩
  case zero => exact decide_eq_true_iff.trans BitVec.toNat_inj.symm
  case parity => rw [resultFlags_p, parity_iff_ones_even]

/-! ## ADD and ADC -/

theorem add8Flags_cy_iff (a v : Byte) (c : Bool) : (add8Flags a v c).cy = true ↔ 256 ≤ a.toNat + v.toNat + bit c := by
  rw [add8Flags, resultFlags_cy, decide_eq_true_iff]
  rfl

theorem add8Flags_ac_iff (a v : Byte) (c : Bool) :
    (add8Flags a v c).ac = true ↔ 16 ≤ a.toNat % 16 + v.toNat % 16 + bit c := by
  rw [add8Flags, resultFlags_ac, decide_eq_true_iff]
  rfl

/-- Every form of ADD and ADC is Add8 to A of its operand and carry in (R152), and Add8 is what R150 says. -/
theorem addsToA_of_exec {i : Instr} {s : State} {v : Byte} {c : Bool} (h : exec i s = .next (s.addA v c)) :
    AddsToA i s v c :=
  ⟨s.addA v c, h, toNat_add8 s.a v c, flagsOf_resultFlags _ _ _, add8Flags_cy_iff s.a v c, add8Flags_ac_iff s.a v c,
    changesOnly_addA s v c⟩

/-- Settles O9: the three forms differ only in where the operand comes from; the carry in is 0. -/
theorem addWritesSumAndFlags : Obligations.AddWritesSumAndFlags := by
  intro s
  exact ⟨fun r => ⟨hasEncoding_encode rfl rfl, addsToA_of_exec rfl⟩, ⟨hasEncoding_encode rfl rfl, addsToA_of_exec rfl⟩,
    fun d8 => ⟨hasEncoding_encode rfl rfl, addsToA_of_exec rfl⟩⟩

/-- Settles O10: as ADD, with the CY of the state before as the carry in. -/
theorem adcAddsCarryIn : Obligations.AdcAddsCarryIn := by
  intro s
  exact ⟨fun r => ⟨hasEncoding_encode rfl rfl, addsToA_of_exec rfl⟩, ⟨hasEncoding_encode rfl rfl, addsToA_of_exec rfl⟩,
    fun d8 => ⟨hasEncoding_encode rfl rfl, addsToA_of_exec rfl⟩⟩

/-! ## INR -/

theorem inc8Flags_ac_iff (v : Byte) (f : Flags) : (inc8Flags v f).ac = true ↔ v.toNat % 16 = 15 := by
  rw [inc8Flags, resultFlags_ac, decide_eq_true_iff, lowNibble]

/-- Settles O13: INR writes four flags and then one register or one Byte, so its frame is that of the two writes in a row. The
write to a register or to memory leaves the flags, and the one to the flags leaves HL, the address of M. -/
theorem inrIncrementsKeepingCarry : Obligations.InrIncrementsKeepingCarry := by
  refine ⟨fun r s => ⟨hasEncoding_encode rfl rfl, ?register⟩, fun s => ⟨hasEncoding_encode rfl rfl, ?memory⟩⟩
  case register =>
    refine ⟨{ s with flags := inc8Flags (s.reg r) s.flags }.setReg r (inc8 (s.reg r)), rfl, ?_⟩
    rw [State.reg_setReg_self, State.setReg_flags]
    exact ⟨toNat_inc8 _, flagsOf_resultFlags _ _ _, inc8Flags_ac_iff _ _,
      changesOnly_trans (changesOnly_resultFlags_keepingCarry s _ _) (changesOnly_setReg _ r _)⟩
  case memory =>
    refine ⟨{ s with flags := inc8Flags s.readM s.flags }.writeByte s.hl (inc8 s.readM), rfl, ?_⟩
    rw [State.readByte_writeByte_self, State.writeByte_flags]
    exact ⟨toNat_inc8 _, flagsOf_resultFlags _ _ _, inc8Flags_ac_iff _ _,
      changesOnly_trans (changesOnly_resultFlags_keepingCarry s _ _) (changesOnly_writeByte _ s.hl _)⟩

/-! ## 16-bit arithmetic: INX, DCX and DAD -/

theorem toNat_word_add_one (w : Word) : (w + 1).toNat = (w.toNat + 1) % 65536 := BitVec.toNat_add w 1

theorem toNat_word_sub_one (w : Word) : (w - 1).toNat = (w.toNat + 65535) % 65536 := by
  rw [Nat.add_comm]
  exact BitVec.toNat_sub w 1

/-- Settles O15: each is one pair write, of the Word read before it plus or minus 1. -/
theorem inxDcxWrapWithoutFlags : Obligations.InxDcxWrapWithoutFlags := by
  intro rp s
  refine ⟨hasEncoding_encode rfl rfl, ⟨s.setPair rp (s.pair rp + 1), rfl, ?inc, changesOnly_setPair s rp _⟩,
    hasEncoding_encode rfl rfl, ⟨s.setPair rp (s.pair rp - 1), rfl, ?dec, changesOnly_setPair s rp _⟩⟩
  case inc => rw [State.pair_setPair_self, toNat_word_add_one]
  case dec => rw [State.pair_setPair_self, toNat_word_sub_one]

@[simp] theorem hl_setPair_hl (s : State) (w : Word) : (s.setPair .hl w).hl = w := s.pair_setPair_self .hl w

/-- Settles O16: DAD is a write of CY and then one of HL, both from operands read before. -/
theorem dadAddsPairToHl : Obligations.DadAddsPairToHl := by
  intro rp s
  refine ⟨hasEncoding_encode rfl rfl,
    (s.setCy (add16Carry s.hl (s.pair rp))).setPair .hl (add16 s.hl (s.pair rp)), rfl, ?sum, ?carry,
    changesOnly_trans (changesOnly_setCy s _) (changesOnly_setPair _ .hl _)⟩
  case sum => rw [hl_setPair_hl, toNat_add16]
  case carry => rw [State.setPair_flags, State.setCy_flags, add16Carry_iff]

end Sys2Proof.Proofs
end

section
/-!
PROOFS. The statements of 42_logical.md. A logical instruction is one write of A and of all five flags, a rotate one of A and of
CY. What a rotate does bit by bit is read off two library operations that rotate through a carry: the carry put below the Byte,
its bottom 8 bits kept, and the carry put above it, its top 8 bits kept.
-/

namespace Sys2Proof.Proofs

open Sys2Proof Sys2Proof.Machine Sys2Proof.Claims

/-! ## XRA and ORA -/

/-- An instruction that writes a result to A, with the flags `Logic` gives it (R190), is what the statements say of one. -/
theorem logicToA_of_exec {i : Instr} {s : State} {r : Byte} {ac : Bool}
    (h : exec i s = .next { s with a := r, flags := logicFlags r ac }) : LogicToA i s r ac :=
  ⟨{ s with a := r, flags := logicFlags r ac }, h, rfl, flagsOf_resultFlags r ac false, rfl, rfl,
    changesOnly_trans (changesOnly_allFlags s (logicFlags r ac)) (changesOnly_setReg _ .a r)⟩

/-- Settles O20: the three forms of each operation differ only in where the operand comes from; AC is 0 for both operations. -/
theorem xraOraClearCarries : Obligations.XraOraClearCarries := by
  intro s
  refine ⟨fun r => ⟨?_, ?xraR⟩, ⟨?_, ?xraM⟩, fun d8 => ⟨?_, ?xri⟩, fun r => ⟨?_, ?oraR⟩, ⟨?_, ?oraM⟩, fun d8 => ⟨?_, ?ori⟩⟩
  case xraR | xraM | xri | oraR | oraM | ori => exact logicToA_of_exec rfl
  all_goals exact hasEncoding_encode rfl rfl

/-! ## Rotates -/

theorem bit_eq_toNat (b : Bool) : bit b = b.toNat := by cases b <;> rfl

/-- RAL (R205) puts CY below A and keeps the bottom 8 of the 9 bits. -/
theorem rotLeftCarry_eq_shiftConcat (a : Byte) (cy : Bool) : rotLeftCarry a cy = a.shiftConcat cy := by
  have hcy := cy.toNat_le
  apply BitVec.eq_of_toNat_eq
  rw [BitVec.toNat_shiftConcat, Nat.shiftLeft_eq, rotLeftCarry, BitVec.toNat_ofNat, bit_eq_toNat]
  omega

/-- RAR (R206) puts CY above A and keeps the top 8 of the 9 bits. -/
theorem rotRightCarry_eq_extractLsb' (a : Byte) (cy : Bool) :
    rotRightCarry a cy = (BitVec.cons cy a).extractLsb' 1 8 := by
  apply BitVec.eq_of_toNat_eq
  rw [BitVec.extractLsb'_toNat, BitVec.toNat_cons', Nat.shiftLeft_eq, Nat.shiftRight_eq_div_pow, rotRightCarry,
    BitVec.toNat_ofNat, bit_eq_toNat]
  omega

theorem getLsbD_rotLeftCarry (a : Byte) (cy : Bool) {k : Nat} (hk : k < 8) :
    (rotLeftCarry a cy).getLsbD k = if k = 0 then cy else a.getLsbD (k - 1) := by
  rw [rotLeftCarry_eq_shiftConcat, BitVec.getLsbD_shiftConcat, decide_eq_true hk, Bool.true_and]

theorem getLsbD_rotRightCarry (a : Byte) (cy : Bool) {k : Nat} (hk : k < 8) :
    (rotRightCarry a cy).getLsbD k = if k = 7 then cy else a.getLsbD (k + 1) := by
  rw [rotRightCarry_eq_extractLsb', BitVec.getLsbD_extractLsb', BitVec.getLsbD_cons, decide_eq_true hk, Bool.true_and,
    Nat.add_comm 1 k]
  simp only [Nat.reduceEqDiff]

/-- RLC (R203) is RAL with the old bit 7 in place of CY. -/
theorem rotLeft_eq_rotLeftCarry (a : Byte) : rotLeft a = rotLeftCarry a (a.getLsbD 7) := rfl

/-- RRC (R204) is RAR with the old bit 0 in place of CY. -/
theorem rotRight_eq_rotRightCarry (a : Byte) : rotRight a = rotRightCarry a (a.getLsbD 0) := rfl

/-- An instruction that writes A and CY is a rotate when the Byte written has the bits that the rotate gives A. -/
theorem rotatesA_of_exec {i : Instr} {s : State} {r : Byte} {newBit : Nat → Bool} {out : Bool}
    (h : exec i s = .next ((s.setReg .a r).setCy out)) (bits : ∀ k, k < 8 → r.getLsbD k = newBit k) :
    RotatesA i s newBit out :=
  ⟨(s.setReg .a r).setCy out, h, bits, rfl, changesOnly_trans (changesOnly_setReg s .a r) (changesOnly_setCy _ out)⟩

/-- Settles O22: RLC and RRC are RAL and RAR of the bit they shift out, so the bits of the two rotates through the carry are the
bits of all four. -/
theorem rotatesShiftOneBit : Obligations.RotatesShiftOneBit := by
  intro s
  refine ⟨hasEncoding_encode rfl rfl, rotatesA_of_exec rfl ?rlc, hasEncoding_encode rfl rfl, rotatesA_of_exec rfl ?rrc,
    hasEncoding_encode rfl rfl, rotatesA_of_exec rfl ?ral, hasEncoding_encode rfl rfl, rotatesA_of_exec rfl ?rar⟩
  case rlc => exact fun k hk => rotLeft_eq_rotLeftCarry s.a ▸ getLsbD_rotLeftCarry s.a _ hk
  case rrc => exact fun k hk => rotRight_eq_rotRightCarry s.a ▸ getLsbD_rotRightCarry s.a _ hk
  case ral => exact fun k => getLsbD_rotLeftCarry s.a s.flags.cy
  case rar => exact fun k => getLsbD_rotRightCarry s.a s.flags.cy

/-! ## CMA, STC and CMC -/

/-- Settles O23: CMA is one write of A and the other two are one write of CY. -/
theorem complementAndCarryInstructions : Obligations.ComplementAndCarryInstructions := by
  intro s
  refine ⟨hasEncoding_encode rfl rfl, ?cma, hasEncoding_encode rfl rfl, ?stc, hasEncoding_encode rfl rfl, ?cmc⟩
  case cma => exact ⟨s.setReg .a (~~~s.a), rfl, BitVec.toNat_not, changesOnly_setReg s .a _⟩
  case stc => exact ⟨s.setCy true, rfl, rfl, changesOnly_setCy s true⟩
  case cmc => exact ⟨s.setCy (!s.flags.cy), rfl, rfl, changesOnly_setCy s _⟩

end Sys2Proof.Proofs
end

section
/-!
PROOFS. The statements of 43_branch.md. A jump is one write of PC, a call a push and then that write, a return a write of SP and
then that write; so each instruction here is one of the three or, when its condition does not hold, nothing.
-/

namespace Sys2Proof.Proofs

open Sys2Proof Sys2Proof.Machine Sys2Proof.Claims

/-! ## Conditions -/

/-- Settles O24: the code of each condition leaves one of the eight alternatives, and that one is the test of its flag. -/
theorem conditionsTestOneFlag : Obligations.ConditionsTestOneFlag := by
  intro f cc
  cases cc <;> simp [Flags.holds, Cond.code]

/-! ## Frames: a write to PC, a push, a call and a return -/

section BranchFrames

variable (s : State)

theorem changesOnly_pc (w : Word) : ChangesOnly { pc := true } s { s with pc := w } where
  regs r _ := by cases r <;> rfl
  flags _ _ := rfl
  mem _ _ := rfl
  pc := nofun
  sp _ := rfl
  inte _ := rfl
  halted _ := rfl
  pending _ := rfl
  io _ := rfl
  params := rfl

/-- The two Bytes of a Word on the stack are neighbours, also across the wrap at 0. -/
theorem word_sub_two_add_one (w : Word) : w - 2 + 1 = w - 1 := by
  bv_omega

@[simp] theorem readByte_push16_low (w : Word) : (s.push16 w).readByte (s.sp - 2) = loByte w :=
  readByte_writeWord_low _ _ w

@[simp] theorem readByte_push16_high (w : Word) : (s.push16 w).readByte (s.sp - 1) = hiByte w := by
  rw [← word_sub_two_add_one]
  exact readByte_writeWord_high _ _ w

/-- Push16 (R76) is a write of SP and a write of one Word. -/
theorem changesOnly_push16 (w : Word) :
    ChangesOnly { sp := true, mem := [s.sp - 2, s.sp - 1] } s (s.push16 w) := by
  rw [← word_sub_two_add_one]
  exact changesOnly_trans (changesOnly_setPair s .sp (s.sp - 2)) (changesOnly_writeWord _ (s.sp - 2) w)

/-- Pop16 (R77) writes SP alone. -/
theorem changesOnly_drop16 : ChangesOnly { sp := true } s s.drop16 :=
  changesOnly_setPair s .sp (s.sp + 2)

theorem changesOnly_callTo (target : Word) :
    ChangesOnly { pc := true, sp := true, mem := [s.sp - 2, s.sp - 1] } s (s.callTo target) :=
  changesOnly_trans (changesOnly_push16 s s.pc) (changesOnly_pc _ target)

theorem changesOnly_returnToCaller : ChangesOnly { pc := true, sp := true } s s.returnToCaller :=
  changesOnly_trans (changesOnly_drop16 s) (changesOnly_pc _ s.top16)

end BranchFrames

/-! ## Jumps -/

/-- Taken or not, Jcc (R232) is one write of PC: not taken, of the value PC has. -/
theorem exec_jcc (cc : Cond) (a16 : Word) (s : State) :
    exec (.jcc cc a16) s = .next { s with pc := if s.flags.holds cc = true then a16 else s.pc } :=
  congrArg Host.Outcome.next (apply_ite (fun w => { s with pc := w }) _ a16 s.pc).symm

/-- Settles O25: the three jumps differ only in the Word they write to PC. -/
theorem jumpsWriteOnlyPc : Obligations.JumpsWriteOnlyPc := by
  intro a16 cc s
  refine ⟨hasEncoding_encode rfl rfl, ?jmp, hasEncoding_encode rfl rfl, ?jcc, hasEncoding_encode rfl rfl, ?pchl⟩
  case jmp => exact ⟨_, rfl, rfl, changesOnly_pc s a16⟩
  case jcc => exact ⟨_, exec_jcc cc a16 s, rfl, changesOnly_pc s _⟩
  case pchl => exact ⟨_, rfl, toNat_joinBytes s.h s.l, changesOnly_pc s s.hl⟩

/-! ## Calls -/

/-- An instruction that calls a target (R233) is what the statements say of one. -/
theorem calls_of_exec {i : Instr} {s : State} {target : Word} (h : exec i s = .next (s.callTo target)) :
    Calls i s target := by
  have pushed (x : Word) : (s.callTo target).readByte x = (s.push16 s.pc).readByte x :=
    State.readByte_congr (s.callTo_mem target) x
  refine ⟨s.callTo target, h, rfl, rfl, ?low, ?high, changesOnly_callTo s target⟩
  case low => rw [pushed, readByte_push16_low, toNat_loByte]
  case high => rw [pushed, readByte_push16_high, toNat_hiByte]

theorem exec_ccc (cc : Cond) (a16 : Word) (s : State) :
    exec (.ccc cc a16) s = .next (if s.flags.holds cc then s.callTo a16 else s) := rfl

/-- Settles O27: Ccc is a call or nothing, as its condition says, and RST n is a call with no condition. -/
theorem conditionalCallAndRestart : Obligations.ConditionalCallAndRestart := by
  refine ⟨fun cc a16 s => ⟨hasEncoding_encode rfl rfl, fun taken => calls_of_exec ?_, fun notTaken => ?_⟩,
    fun n s => ⟨hasEncoding_encode rfl rfl, calls_of_exec rfl⟩⟩
  · rw [exec_ccc, if_pos taken]
  · rw [exec_ccc, notTaken, if_neg Bool.false_ne_true]

/-! ## Returns -/

/-- An instruction that returns (R235) is what the statements say of one. -/
theorem returns_of_exec {i : Instr} {s : State} (h : exec i s = .next s.returnToCaller) : Returns i s :=
  ⟨s.returnToCaller, h, toNat_joinBytes _ _, rfl, changesOnly_returnToCaller s⟩

theorem exec_rcc (cc : Cond) (s : State) :
    exec (.rcc cc) s = .next (if s.flags.holds cc then s.returnToCaller else s) := rfl

/-- Settles O28: RET returns, and Rcc returns or does nothing, as its condition says. -/
theorem returnsPopPc : Obligations.ReturnsPopPc := by
  refine ⟨fun s => ⟨hasEncoding_encode rfl rfl, returns_of_exec rfl⟩,
    fun cc s => ⟨hasEncoding_encode rfl rfl, fun taken => returns_of_exec ?_, fun notTaken => ?_⟩⟩
  · rw [exec_rcc, if_pos taken]
  · rw [exec_rcc, notTaken, if_neg Bool.false_ne_true]

end Sys2Proof.Proofs
end

section
/-!
PROOFS. The statements of 44_stack.md. A push is Push16 of a pair, a pop is Pop16 and then a write of a pair, XTHL a write of a Word
and then one of HL, SPHL a write of SP.
-/

namespace Sys2Proof.Proofs

open Sys2Proof Sys2Proof.Machine Sys2Proof.Claims

/-! ## PUSH and POP -/

/-- An instruction that pushes the Word of two Bytes (R76) is what the statements say of a push. -/
theorem pushes_of_exec {i : Instr} {s : State} {hi lo : Byte} (h : exec i s = .next (s.push16 (joinBytes hi lo))) :
    Pushes i s hi lo :=
  ⟨s.push16 (joinBytes hi lo), h, rfl, (readByte_push16_low s _).trans (loByte_joinBytes hi lo),
    (readByte_push16_high s _).trans (hiByte_joinBytes hi lo), changesOnly_push16 s _⟩

section PairOfRegisters

variable {rp : RegPair} {hi lo : Reg}

/-- The first-named register of a pair takes the high Byte, the second the low Byte (R21). -/
theorem reg_setPair_of_pairRegs (h : pairRegs rp = [hi, lo]) (s : State) (w : Word) :
    (s.setPair rp w).reg hi = hiByte w ∧ (s.setPair rp w).reg lo = loByte w := by
  cases rp <;> cases h <;> exact ⟨rfl, rfl⟩

theorem ne_sp_of_pairRegs (h : pairRegs rp = [hi, lo]) : rp ≠ .sp := by
  rintro rfl
  cases h

/-- POP of a pair made of two registers: the two Bytes of the Word on top go to them (R77, R262). -/
theorem pops_pop (h : pairRegs rp = [hi, lo]) (s : State) : Pops (.pop rp) s hi lo := by
  obtain ⟨high, low⟩ := reg_setPair_of_pairRegs h s.drop16 s.top16
  refine ⟨s.drop16.setPair rp s.top16, rfl, low.trans (loByte_joinBytes _ _), high.trans (hiByte_joinBytes _ _),
    s.drop16.sp_setPair_of_ne (ne_sp_of_pairRegs h) _, ?frame⟩
  case frame => exact h ▸ changesOnly_trans (changesOnly_drop16 s) (changesOnly_setPair s.drop16 rp s.top16)

end PairOfRegisters

/-- Settles O30: the three pushes and the three pops differ only in the pair they name. -/
theorem pushPopMovePairs : Obligations.PushPopMovePairs := by
  intro s
  exact ⟨hasEncoding_encode rfl rfl, hasEncoding_encode rfl rfl, hasEncoding_encode rfl rfl,
    pushes_of_exec rfl, pushes_of_exec rfl, pushes_of_exec rfl,
    hasEncoding_encode rfl rfl, hasEncoding_encode rfl rfl, hasEncoding_encode rfl rfl,
    pops_pop rfl s, pops_pop rfl s, pops_pop rfl s⟩

/-! ## XTHL and SPHL -/

/-- Settles O32: XTHL writes HL to the Word at SP and then the Word read there before to HL, and the second write leaves memory
as the first made it, the wrap after 0xFFFF included. SPHL is one write of SP. -/
theorem xthlSphl : Obligations.XthlSphl := by
  intro s
  refine ⟨hasEncoding_encode rfl rfl, ?xthl, hasEncoding_encode rfl rfl, ?sphl⟩
  case xthl =>
    exact ⟨(s.writeWord s.sp s.hl).setPair .hl s.top16, rfl, loByte_joinBytes _ _, hiByte_joinBytes _ _,
      (readByte_writeWord_low s s.sp _).trans (loByte_joinBytes s.h s.l),
      (readByte_writeWord_high s s.sp _).trans (hiByte_joinBytes s.h s.l),
      changesOnly_trans (changesOnly_writeWord s s.sp s.hl) (changesOnly_setPair _ .hl s.top16)⟩
  case sphl => exact ⟨s.setPair .sp s.hl, rfl, toNat_joinBytes s.h s.l, changesOnly_setPair s .sp s.hl⟩

end Sys2Proof.Proofs
end

section
/-!
PROOFS. The statements of 45_io_control.md. DI and HLT are one write of a control bit each and NOP is no write, so one frame, that
of an update of the control bits, serves the three.
-/

namespace Sys2Proof.Proofs

open Sys2Proof Sys2Proof.Machine

/-! ## DI, HLT and NOP -/

/-- An update that only replaces INTE and HALTED is framed by those of the two that may differ. -/
theorem changesOnly_controlBits (s : State) {mayInte mayHalted inte halted : Bool}
    (hi : mayInte = false → inte = s.inte) (hh : mayHalted = false → halted = s.halted) :
    ChangesOnly { inte := mayInte, halted := mayHalted } s { s with inte := inte, halted := halted } where
  regs r _ := by cases r <;> rfl
  flags _ _ := rfl
  mem _ _ := rfl
  pc _ := rfl
  sp _ := rfl
  inte := hi
  halted := hh
  pending _ := rfl
  io _ := rfl
  params := rfl

/-- Settles O35: with INTE 0 the acceptance test (R304) lets nothing in, whatever is pending; the three differ only in which of
the control bits they write. -/
theorem diHltNop : Obligations.DiHltNop := by
  intro s
  refine ⟨hasEncoding_encode rfl rfl, ?di, hasEncoding_encode rfl rfl, ?hlt, hasEncoding_encode rfl rfl, ?nop⟩
  case di =>
    exact ⟨{ s with inte := false }, rfl, rfl, acceptable_eq_none.mpr (.inl rfl),
      changesOnly_controlBits s nofun fun _ => rfl⟩
  case hlt => exact ⟨{ s with halted := true }, rfl, rfl, changesOnly_controlBits s (fun _ => rfl) nofun⟩
  case nop => exact ⟨s, rfl, changesOnly_controlBits s (fun _ => rfl) fun _ => rfl⟩

end Sys2Proof.Proofs
end

section
/-!
PROOFS. The statements of 30_encoding.md. What the decoder answers is taken apart once, by the form of the opcode Byte; the
table of forms says where the operand Bytes of the answer come from.
-/

namespace Sys2Proof.Proofs

open Sys2Proof Sys2Proof.Machine

/-! ## What the decoder answers -/

/-- Settles O54: it is the round trip of the decoder. -/
theorem decodeUndoesEncode : Obligations.DecodeUndoesEncode :=
  fun _ rest hw => decode_encode_append hw rest

/-- The operand Bytes of an instruction of this form are exactly those it was made from (R91, R96, R97). -/
def OpcodeFormKeepsOperands : OpcodeForm → Prop
  | .one i => i.operandBytes = []
  | .imm k => ∀ d8, (k d8).operandBytes = [d8]
  | .addr k => ∀ d16, (k d16).operandBytes = [loByte d16, hiByte d16]

theorem opcodeMap_keepsOperands : ∀ form ∈ opcodeMap, OpcodeFormKeepsOperands form := by
  simp only [opcodeMap, List.forall_mem_append]
  simp [opcodeRow0, opcodeRow1, opcodeRow2, opcodeRow3, opcodeRow4, opcodeRow5, opcodeRow6, opcodeRow7,
    opcodeRow8, opcodeRow9, opcodeRowA, opcodeRowB, opcodeRowC, opcodeRowD, opcodeRowE, opcodeRowF,
    OpcodeFormKeepsOperands, Instr.operandBytes]

theorem decodeOpcode_keepsOperands (b : Byte) : OpcodeFormKeepsOperands (decodeOpcode b) := by
  have hb : b.toNat < opcodeMap.length := opcodeMap_length ▸ b.isLt
  rw [decodeOpcode, List.getD_eq_getElem _ _ hb]
  exact opcodeMap_keepsOperands _ (List.getElem_mem hb)

/-- What decodes begins with an opcode Byte, and that Byte's form takes none, one or two operand Bytes after it (R91). -/
theorem decode_cases {bytes rest : List Byte} {i : Instr} (h : decode bytes = .ok (i, rest)) :
    ∃ b0, (decodeOpcode b0 = .one i ∧ bytes = b0 :: rest) ∨
      (∃ k b1, decodeOpcode b0 = .imm k ∧ i = k b1 ∧ bytes = b0 :: b1 :: rest) ∨
      ∃ k b1 b2, decodeOpcode b0 = .addr k ∧ i = k (joinBytes b2 b1) ∧ bytes = b0 :: b1 :: b2 :: rest := by
  unfold decode at h
  split at h
  · cases h
  · rename_i b0 tail
    refine ⟨b0, ?_⟩
    split at h <;> cases h
    · rename_i hd
      exact .inl ⟨hd, rfl⟩
    · rename_i hd
      exact .inr (.inl ⟨_, _, hd, rfl, rfl⟩)
    · rename_i hd
      exact .inr (.inr ⟨_, _, _, hd, rfl, rfl⟩)

/-- The instruction a list decodes to is the one `decodeBytes` reads from its first Byte and its encoding is what was read. -/
theorem decodeBytes_of_decode {bytes rest : List Byte} {i : Instr} (h : decode bytes = .ok (i, rest)) :
    ∃ b0 b1 b2, i = decodeBytes b0 b1 b2 ∧ bytes = b0 :: (i.operandBytes ++ rest) := by
  obtain ⟨b0, ⟨hd, rfl⟩ | ⟨k, b1, hd, rfl, rfl⟩ | ⟨k, b1, b2, hd, rfl, rfl⟩⟩ := decode_cases h
  all_goals
    have operands := decodeOpcode_keepsOperands b0
    rw [hd] at operands
  · exact ⟨b0, 0, 0, (decodeBytes_of_one hd 0 0).symm, congrArg (b0 :: · ++ rest) operands.symm⟩
  · exact ⟨b0, b1, 0, (decodeBytes_of_imm hd b1 0).symm, by rw [operands b1]; rfl⟩
  · refine ⟨b0, b1, b2, (decodeBytes_of_addr hd b1 b2).symm, ?_⟩
    rw [operands (joinBytes b2 b1), loByte_joinBytes, hiByte_joinBytes]
    rfl

/-- Settles O55: the decoder answers well-formed instructions only, and the opcode Byte and the operand Bytes of its answer are
the Bytes it read. -/
theorem encodeUndoesDecode : Obligations.EncodeUndoesDecode := by
  intro bytes rest i h
  obtain ⟨b0, b1, b2, rfl, rfl⟩ := decodeBytes_of_decode h
  refine ⟨decodeBytes_wellFormed b0 b1 b2, ?_⟩
  rw [encode, encodeOpcode_decodeBytes, List.cons_append]

/-! ## The unimplemented values -/

theorem decodeBytes_unimplemented_of_mem {b0 : Byte} (h : b0 ∈ unimplementedOpcodes) (b1 b2 : Byte) :
    (decodeBytes b0 b1 b2).unimplemented = some b0 :=
  (decodeBytes_unimplemented b0 b1 b2).trans (if_pos h)

theorem decodeBytes_implemented_of_notMem {b0 : Byte} (h : b0 ∉ unimplementedOpcodes) (b1 b2 : Byte) :
    (decodeBytes b0 b1 b2).unimplemented = none :=
  (decodeBytes_unimplemented b0 b1 b2).trans (if_neg h)

/-- Each of the twelve values (R99) is an instruction of one Byte. -/
theorem decodeOpcode_of_mem_unimplementedOpcodes {b : Byte} (h : b ∈ unimplementedOpcodes) :
    ∃ i, decodeOpcode b = .one i ∧ i.unimplemented = some b := by
  fin_cases h <;> exact ⟨_, rfl, rfl⟩

/-- Settles O56: three Bytes are enough for every form, and the opcode Byte says whether the instruction is implemented. -/
theorem decoderIsTotal : Obligations.DecoderIsTotal := by
  intro b0 b1 b2 rest
  obtain ⟨left, h⟩ := decode_of_three b0 b1 b2 rest
  refine ⟨decodeBytes b0 b1 b2, left, h, fun unimplemented => ?faults, fun implemented => ?completes⟩
  case faults =>
    have hi := decodeBytes_unimplemented_of_mem unimplemented b1 b2
    exact ⟨hi, fun s => ⟨_, exec_of_unimplemented hi s⟩⟩
  case completes => exact exec_of_implemented (decodeBytes_implemented_of_notMem implemented b1 b2)

/-! ## Lengths -/

/-- The length the opcode Byte gives an implemented instruction (R101), by its masks and lists. -/
def opcodeLength (b0 : Byte) : Nat :=
  if b0 &&& 0xCF = 0x01 ∨ b0 ∈ ([0x22, 0x2A, 0x32, 0x3A, 0xC3, 0xCD] : List Byte) ∨ b0 &&& 0xC7 = 0xC2 ∨
    b0 &&& 0xC7 = 0xC4 then 3
  else if b0 &&& 0xC7 = 0x06 ∨ b0 &&& 0xC7 = 0xC6 ∨ b0 = 0xD3 ∨ b0 = 0xDB then 2
  else 1

set_option maxRecDepth 10000 in
theorem size_decodeBytes {b0 : Byte} (h : b0 ∉ unimplementedOpcodes) (b1 b2 : Byte) :
    (decodeBytes b0 b1 b2).size = opcodeLength b0 := by
  have table := decodeOpcode_forall
    (fun b form => decide (b ∈ unimplementedOpcodes) || (form.instr b1 b2).size == opcodeLength b) rfl b0
  rw [decide_eq_false h, Bool.false_or] at table
  exact eq_of_beq table

/-- Settles O57: an encoding is as long as its instruction's length, which the opcode Byte gives; the form of an unimplemented
value is complete in its Byte, and its fetch does not move PC. -/
theorem opcodeDecidesLength : Obligations.OpcodeDecidesLength := by
  refine ⟨fun b0 bytes rest i h implemented => ?length, fun b0 unimplemented rest s => ?faults⟩
  case length =>
    obtain ⟨b, b1, b2, rfl, heq⟩ := decodeBytes_of_decode h
    obtain rfl : b0 = b := List.head_eq_of_cons_eq heq
    exact (encode_length _).trans (size_decodeBytes implemented b1 b2)
  case faults =>
    obtain ⟨i, hd, hi⟩ := decodeOpcode_of_mem_unimplementedOpcodes unimplemented
    exact ⟨i, by simp only [decode, hd], fetchAdvance_of_unimplemented hi, exec_of_unimplemented hi s⟩

/-! ## Words of the map -/

/-- Settles O53, each code and each word by running the tables and the decoder on it. -/
theorem specWordsDecode : Obligations.SpecWordsDecode :=
  ⟨rfl, rfl, rfl, rfl, rfl, rfl, rfl, rfl, rfl, rfl, rfl, rfl, rfl, rfl⟩

/-! ## The instruction a step fetches -/

/-- Settles O58: the fetch reads the instruction the list decoder answers for the three Bytes at PC. -/
theorem stepRunsDecodedInstruction : Obligations.StepRunsDecodedInstruction := by
  intro s i left noRequest running h
  obtain ⟨left', h'⟩ := decode_of_three (s.readByte s.pc) (s.readByte (s.pc + 1)) (s.readByte (s.pc + 2)) []
  obtain rfl : s.fetch = i := congrArg Prod.fst (Except.ok.inj (h'.symm.trans h))
  exact step_of_running noRequest running

/-- A well-formed instruction whose Bytes lie at PC, PC + 1, … modulo 65536 is the one fetched. -/
theorem fetch_of_encode_at_pc {s : State} {i : Instr} (hw : i.wellFormed = true)
    (h : ∀ k, k < i.size → (encode i)[k]? = some (s.readByte (s.pc + BitVec.ofNat 16 k))) : s.fetch = i := by
  rw [← encode_length] at h
  have opcode : encodeOpcode i = s.readByte s.pc := by simpa [encode] using h 0 (by simp [encode])
  have forms := decodeOpcode_encodeOpcode_cases hw
  rw [opcode] at forms
  obtain ⟨hd, hb⟩ | ⟨k, d8, hd, rfl, hb⟩ | ⟨k, d16, hd, rfl, hb⟩ := forms
  all_goals
    rw [encode, hb] at h
  · exact decodeBytes_of_one hd _ _
  · have operand : d8 = s.readByte (s.pc + 1) := by simpa using h 1 (by simp)
    rw [operand]
    exact decodeBytes_of_imm hd _ _
  · have low : loByte d16 = s.readByte (s.pc + 1) := by simpa using h 1 (by simp)
    have high : hiByte d16 = s.readByte (s.pc + 2) := by simpa using h 2 (by simp)
    rw [← joinBytes_hiByte_loByte d16, low, high]
    exact decodeBytes_of_addr hd _ _

/-- Settles O59: an implemented instruction's fetch moves PC by its length. -/
theorem stepRunsEncodedInstruction : Obligations.StepRunsEncodedInstruction := by
  intro s i noRequest running hw hi bytesAtPc
  rw [step_of_running noRequest running, fetch_of_encode_at_pc hw bytesAtPc, State.advancePc,
    fetchAdvance_of_implemented hi]

end Sys2Proof.Proofs
end

section
/-!
PROOFS. The statements about the canonical form of memory and about runs (10_state.md, 20_memory.md, section 7 of
60_exceptions.md).
-/

namespace Sys2Proof.Proofs

open Sys2Proof Sys2Proof.Machine

/-! ## The canonical form along a run -/

/-- Settles O51: a held step leaves the state, and the other two kinds execute one instruction on a state whose memory is the
one before the step. -/
theorem stepKeepsInvariant : Obligations.StepKeepsInvariant := by
  intro s t hs h
  refine step_induction (P := fun s t => Inv s → Inv t) ?held ?fetched ?accepted h hs
  case held => exact id
  case fetched => exact fun i e => exec_keeps_wf (s := s.advancePc i) e
  case accepted => exact fun i e => exec_keeps_wf (s := s.acknowledge) e

/-- Of the host's actions (R320) only a poke of a Byte reaches memory, and it is a Byte write. -/
theorem applyHost_keeps_inv (act : HostAction) {s : State} (hs : Inv s) : Inv (applyHost act s) := by
  cases act with
  | pokeByte addr v => exact State.wf_writeByte hs addr v
  | pokeReg r v => exact (congrArg Memory.wf (s.setReg_mem r v)).trans hs
  | deliver | externalReset | pokeFlags | pokePc | pokeSp => exact hs

/-- No host action writes the parameters; an external reset launches again with those of the state (R341). -/
theorem applyHost_params (act : HostAction) (s : State) : (applyHost act s).params = s.params := by
  cases act with
  | pokeReg r v => exact s.setReg_params r v
  | deliver | externalReset | pokeByte | pokeFlags | pokePc | pokeSp => rfl

theorem applyEvent_keeps_inv_params {e : Event} {s t : State} (hs : Inv s) (h : applyEvent e s = .next t) :
    Inv t ∧ t.params = s.params := by
  cases e with
  | step => exact ⟨stepKeepsInvariant s t hs h, step_keeps_params h⟩
  | host act =>
    cases h
    exact ⟨applyHost_keeps_inv act hs, applyHost_params act s⟩

/-- A run through one more event that ends in a state passes through the state after that event. -/
theorem runEvents_cons_eq_next {e : Event} {rest : List Event} {s t : State} (h : runEvents (e :: rest) s = .next t) :
    ∃ u, applyEvent e s = .next u ∧ runEvents rest u = .next t := by
  rw [runEvents] at h
  cases hu : applyEvent e s with
  | next u => exact ⟨u, rfl, by simpa only [hu] using h⟩
  | fault r => simp only [hu, reduceCtorEq] at h
  | refused r => simp only [hu, reduceCtorEq] at h

/-- Settles O52, by induction on the events. -/
theorem runsKeepInvariantAndParams : Obligations.RunsKeepInvariantAndParams := by
  intro events
  induction events with
  | nil =>
    intro s t hs h
    cases h
    exact ⟨hs, rfl⟩
  | cons e rest ih =>
    intro s t hs h
    obtain ⟨u, first, later⟩ := runEvents_cons_eq_next h
    obtain ⟨hu, paramsU⟩ := applyEvent_keeps_inv_params hs first
    obtain ⟨ht, paramsT⟩ := ih u t hu later
    exact ⟨ht, paramsT.trans paramsU⟩

/-! ## Reset and launch -/

/-- Settles O50: nothing listed is canonical. -/
theorem resetHasInvariant : Obligations.ResetHasInvariant :=
  ⟨State.reset_wf, fun _ => rfl⟩

/-- The register state of R40, whatever the I/O history; a launch has none yet and an external reset keeps the one there was. -/
theorem launch_registers (p : Params) (m : Memory) (history : List IoEvent) {t : State}
    (ht : t = { State.launch p m with io := history }) :
    (∀ r, t.reg r = 0) ∧ (∀ f, flagOf t.flags f = false) ∧ t.sp = 0 ∧ t.pc = t.params.entryPc ∧ t.halted = false ∧
      t.inte = false ∧ t.pending = none := by
  subst ht
  exact ⟨fun r => by cases r <;> rfl, fun f => by cases f <;> rfl, rfl, rfl, rfl, rfl, rfl⟩

/-- Settles O49: an external reset is a launch with the parameters and the memory of the state. -/
theorem resetState : Obligations.ResetState := by
  intro p m s
  refine ⟨?registers, rfl, rfl, rfl, rfl⟩
  rintro t (launched | reset)
  · exact launch_registers p m [] launched
  · exact launch_registers s.params s.mem s.io reset

/-- Any Bytes below a bound are the reading of a canonical memory: write them one address after another. -/
theorem exists_wf_lookup_eq (g : Nat → Byte) {n : Nat} (hn : n ≤ 65536) :
    ∃ m, Memory.wf m = true ∧ ∀ x, Memory.lookup m x = if x < n then g x else memFill := by
  induction n with
  | zero => exact ⟨[], rfl, fun _ => rfl⟩
  | succ n ih =>
    obtain ⟨m, hm, below⟩ := ih (by omega)
    refine ⟨Memory.update m n (g n), Memory.wf_update hm (by omega) (g n), fun x => ?_⟩
    rw [Memory.lookup_update, below]
    by_cases hx : x = n
    · simp [hx]
    · have sameBound : x < n + 1 ↔ x < n := by omega
      simp [hx, sameBound]

/-- Settles O48: the Bytes of the whole address space are those below 65536. -/
theorem everyMemInitCanBeLaunched : Obligations.EveryMemInitCanBeLaunched := by
  intro f p
  obtain ⟨m, hm, reads⟩ := exists_wf_lookup_eq (fun k => f (BitVec.ofNat 16 k)) (Nat.le_refl 65536)
  refine ⟨m, hm, fun x => ?_⟩
  calc (State.launch p m).readByte x = f (BitVec.ofNat 16 x.toNat) := (reads x.toNat).trans (if_pos x.isLt)
    _ = f x := by rw [BitVec.ofNat_toNat, BitVec.setWidth_eq]

/-! ## A Word through memory -/

/-- Settles O47: LHLD reads memory alone, and the Word SHLD wrote is the one read there, also where its second Byte wraps. -/
theorem storeThenLoadWordWraps : Obligations.StoreThenLoadWordWraps := by
  intro a16 s
  refine ⟨s.writeWord a16 s.hl, rfl, fun r sameMem => ?load, ?wrap⟩
  case load =>
    have loaded : r.readWord a16 = joinBytes s.h s.l := by
      rw [State.readWord, State.readByte_congr sameMem, State.readByte_congr sameMem]
      exact s.readWord_writeWord_self a16 s.hl
    refine ⟨r.setPair .hl (r.readWord a16), rfl, ?_⟩
    rw [loaded]
    exact ⟨hiByte_joinBytes s.h s.l, loByte_joinBytes s.h s.l⟩
  case wrap =>
    rintro rfl
    exact ⟨(readByte_writeWord_low s _ _).trans (loByte_joinBytes s.h s.l),
      (readByte_writeWord_high s 0xFFFF _).trans (hiByte_joinBytes s.h s.l)⟩

end Sys2Proof.Proofs
end

section
/-!
PROOFS. The statements of 41_arithmetic.md, sections 4 to 8: SUB, SBB, DCR and DAA.
-/

namespace Sys2Proof.Proofs

open Sys2Proof Sys2Proof.Machine Sys2Proof.Claims

/-! ## SUB and SBB -/

/-- Sub8 to A (R151) is a write of all five flags and a write of A. -/
theorem changesOnly_subA (s : State) (v : Byte) (b : Bool) :
    ChangesOnly { regs := [.a], flags := allFlags } s (s.subA v b) :=
  changesOnly_trans (changesOnly_allFlags s (sub8Flags s.a v b)) (changesOnly_setReg _ .a (sub8 s.a v b))

theorem sub8Flags_cy_iff (a v : Byte) (b : Bool) : (sub8Flags a v b).cy = true ↔ a.toNat < v.toNat + bit b := by
  rw [sub8Flags, resultFlags_cy, decide_eq_true_iff, sub8Diff]
  omega

/-- The carry out of bit 3 of `a + ~v + (1 - b)` is set when bit 4 lends nothing (D9). -/
theorem sub8Flags_ac_iff (a v : Byte) (b : Bool) :
    (sub8Flags a v b).ac = true ↔ v.toNat % 16 + bit b ≤ a.toNat % 16 := by
  have := bit_le_one b
  rw [sub8Flags, resultFlags_ac, decide_eq_true_iff, lowNibble, lowNibble]
  omega

/-- Every form of SUB and SBB is Sub8 to A of its operand and borrow in (R152), and Sub8 is what R151 says. -/
theorem subtractsFromA_of_exec {i : Instr} {s : State} {v : Byte} {b : Bool} (h : exec i s = .next (s.subA v b)) :
    SubtractsFromA i s v b :=
  ⟨s.subA v b, h, toNat_sub8 s.a v b, flagsOf_resultFlags _ _ _, sub8Flags_cy_iff s.a v b, sub8Flags_ac_iff s.a v b,
    changesOnly_subA s v b⟩

/-- Settles O11: the three forms differ only in where the operand comes from; the borrow in is 0. -/
theorem subWritesDifferenceAndFlags : Obligations.SubWritesDifferenceAndFlags := by
  intro s
  exact ⟨fun _ => ⟨hasEncoding_encode rfl rfl, subtractsFromA_of_exec rfl⟩,
    ⟨hasEncoding_encode rfl rfl, subtractsFromA_of_exec rfl⟩,
    fun _ => ⟨hasEncoding_encode rfl rfl, subtractsFromA_of_exec rfl⟩⟩

/-- Settles O12: as SUB, with the CY of the state before as the borrow in. -/
theorem sbbSubtractsBorrowIn : Obligations.SbbSubtractsBorrowIn := by
  intro s
  exact ⟨fun _ => ⟨hasEncoding_encode rfl rfl, subtractsFromA_of_exec rfl⟩,
    ⟨hasEncoding_encode rfl rfl, subtractsFromA_of_exec rfl⟩,
    fun _ => ⟨hasEncoding_encode rfl rfl, subtractsFromA_of_exec rfl⟩⟩

/-! ## DCR -/

theorem dec8Flags_ac_iff (v : Byte) (f : Flags) : (dec8Flags v f).ac = true ↔ v.toNat % 16 ≠ 0 := by
  rw [dec8Flags, resultFlags_ac, decide_eq_true_iff, lowNibble]

/-- Settles O14: as INR, DCR writes four flags and then one register or one Byte. -/
theorem dcrDecrementsKeepingCarry : Obligations.DcrDecrementsKeepingCarry := by
  refine ⟨fun r s => ⟨hasEncoding_encode rfl rfl, ?register⟩, fun s => ⟨hasEncoding_encode rfl rfl, ?memory⟩⟩
  case register =>
    refine ⟨{ s with flags := dec8Flags (s.reg r) s.flags }.setReg r (dec8 (s.reg r)), rfl, ?_⟩
    rw [State.reg_setReg_self, State.setReg_flags]
    exact ⟨toNat_dec8 _, flagsOf_resultFlags _ _ _, dec8Flags_ac_iff _ _,
      changesOnly_trans (changesOnly_resultFlags_keepingCarry s _ _) (changesOnly_setReg _ r _)⟩
  case memory =>
    refine ⟨{ s with flags := dec8Flags s.readM s.flags }.writeByte s.hl (dec8 s.readM), rfl, ?_⟩
    rw [State.readByte_writeByte_self, State.writeByte_flags]
    exact ⟨toNat_dec8 _, flagsOf_resultFlags _ _ _, dec8Flags_ac_iff _ _,
      changesOnly_trans (changesOnly_resultFlags_keepingCarry s _ _) (changesOnly_writeByte _ s.hl _)⟩

/-! ## DAA -/

theorem toNat_daaResult (a : Byte) (f : Flags) :
    (daaResult a f).toNat =
      (a.toNat + (if daaLow a f = true then 6 else 0) + (if daaHigh a f = true then 0x60 else 0)) % 256 := by
  rw [daaResult, BitVec.toNat_ofNat, daaStep2, daaStep1]

/-- AC after DAA: without the low correction it keeps an AC that was 0, since an AC that was 1 asks for the correction. -/
theorem daaFlags_ac_iff (a : Byte) (f : Flags) :
    (daaFlags a f).ac = true ↔ daaLow a f = true ∧ a.toNat % 16 + 6 > 15 := by
  rw [daaFlags, resultFlags_ac]
  cases low : daaLow a f with
  | true => simp [lowNibble]
  | false =>
    have acClear : f.ac = false := (Bool.or_eq_false_iff.mp low).2
    simp [acClear]

/-- DAA (R172) is a write of all five flags and a write of A. -/
theorem changesOnly_daa (s : State) :
    ChangesOnly { regs := [.a], flags := allFlags } s
      { s with a := daaResult s.a s.flags, flags := daaFlags s.a s.flags } :=
  changesOnly_trans (changesOnly_allFlags s (daaFlags s.a s.flags)) (changesOnly_setReg _ .a (daaResult s.a s.flags))

/-- Settles O17: the two corrections are those the model decides on, read in terms of A as it was. -/
theorem daaClosedForm : Obligations.DaaClosedForm := by
  intro s
  refine ⟨hasEncoding_encode rfl rfl, { s with a := daaResult s.a s.flags, flags := daaFlags s.a s.flags }, rfl,
    ⟨?value, ?carry, ?auxCarry⟩, flagsOf_resultFlags _ _ _, changesOnly_daa s⟩
  case value => simp only [toNat_daaResult, daaLow_iff, daaHigh_iff]
  case carry => rw [daaFlags_cy, daaHigh_iff]
  case auxCarry => rw [daaFlags_ac_iff, daaLow_iff]

/-! ## Addition and then DAA (95_test_vectors.md S3) -/

theorem toNat_bcd {n : Nat} (h : n < 100) : (bcd n).toNat = n / 10 * 16 + n % 10 := by
  rw [bcd, BitVec.toNat_ofNat]
  omega

/-- After an addition of two BCD Bytes the low correction is due exactly when the units make a carry. -/
theorem daaLow_add8_bcd {x y : Nat} (hx : x < 100) (hy : y < 100) :
    daaLow (add8 (bcd x) (bcd y) false) (add8Flags (bcd x) (bcd y) false) = true ↔ 10 ≤ x % 10 + y % 10 := by
  rw [daaLow_iff, add8Flags_ac_iff, toNat_add8, toNat_bcd hx, toNat_bcd hy, bit_false]
  omega

/-- After an addition the high correction is due from the integer sum 0x9A on. -/
theorem daaHigh_add8_iff (a v : Byte) :
    daaHigh (add8 a v false) (add8Flags a v false) = true ↔ 0x9A ≤ a.toNat + v.toNat := by
  have := a.isLt
  have := v.isLt
  rw [daaHigh_iff, add8Flags_cy_iff, toNat_add8, bit_false]
  omega

/-- The integer sum of two BCD Bytes reaches 0x9A exactly when the true sum exceeds 99. -/
theorem bcd_digits_sum_ge_iff (x y : Nat) :
    0x9A ≤ x / 10 * 16 + x % 10 + (y / 10 * 16 + y % 10) ↔ 100 ≤ x + y := by
  have tens : x / 10 + y / 10 ≤ (x + y) / 10 := by omega
  omega

/-- The high correction is due exactly when the true sum exceeds 99. -/
theorem daaHigh_add8_bcd {x y : Nat} (hx : x < 100) (hy : y < 100) :
    daaHigh (add8 (bcd x) (bcd y) false) (add8Flags (bcd x) (bcd y) false) = true ↔ 100 ≤ x + y := by
  rw [daaHigh_add8_iff, toNat_bcd hx, toNat_bcd hy, bcd_digits_sum_ge_iff]

theorem daaResult_add8_bcd {x y : Nat} (hx : x < 100) (hy : y < 100) :
    daaResult (add8 (bcd x) (bcd y) false) (add8Flags (bcd x) (bcd y) false) = bcd ((x + y) % 100) := by
  apply BitVec.eq_of_toNat_eq
  simp only [toNat_daaResult, daaLow_add8_bcd hx hy, daaHigh_add8_bcd hx hy]
  rw [toNat_add8, toNat_bcd hx, toNat_bcd hy, toNat_bcd (Nat.mod_lt _ (by decide)), bit_false]
  split <;> split <;> omega

/-- Every form of ADD adds its operand to A (R152), so only the two Bytes matter. -/
theorem decimalSum_of_exec {i : Instr} {s : State} {x y : Nat} (hx : x < 100) (hy : y < 100)
    (hs : s.a = bcd x) (h : exec i s = .next (s.addA (bcd y) false)) : DecimalSum i s x y := by
  refine ⟨_, _, h, rfl, ?sum, ?carry⟩
  case sum =>
    rw [State.addA_a, State.addA_flags, hs]
    exact daaResult_add8_bcd hx hy
  case carry =>
    rw [State.addA_a, State.addA_flags, hs, daaFlags_cy]
    exact daaHigh_add8_bcd hx hy

/-- Settles O18: the three forms read the same Byte from three places. -/
theorem addThenDaaIsDecimalAddition : Obligations.AddThenDaaIsDecimalAddition := by
  intro s x y hx hy hs
  refine ⟨?immediate, fun r hr => ?register, fun hm => ?memory⟩
  case immediate => exact decimalSum_of_exec hx hy hs rfl
  case register => exact decimalSum_of_exec hx hy hs (hr ▸ rfl)
  case memory => exact decimalSum_of_exec hx hy hs (hm ▸ rfl)

end Sys2Proof.Proofs
end

section
/-! PROOFS. The statements of 42_logical.md, sections 2 and 5: ANA and CMP. -/

namespace Sys2Proof.Proofs

open Sys2Proof Sys2Proof.Machine Sys2Proof.Claims

/-- An AND into A (R190) has its AC from the two operands (D8). -/
theorem logicToA_of_exec_andA {i : Instr} {s : State} {v : Byte} (h : exec i s = .next (s.andA v)) :
    LogicToA i s (s.a &&& v) (s.a.getLsbD 3 || v.getLsbD 3) :=
  BitVec.getLsbD_or (x := s.a) (y := v) (i := 3) ▸ logicToA_of_exec h

/-- Settles O19: the three forms differ only in where the operand comes from. -/
theorem anaAndsIntoA : Obligations.AnaAndsIntoA := by
  intro s
  exact ⟨fun _ => ⟨hasEncoding_encode rfl rfl, logicToA_of_exec_andA rfl⟩,
    ⟨hasEncoding_encode rfl rfl, logicToA_of_exec_andA rfl⟩,
    fun _ => ⟨hasEncoding_encode rfl rfl, logicToA_of_exec_andA rfl⟩⟩

theorem sub8_no_borrow (a v : Byte) : sub8 a v false = a - v := by
  apply BitVec.eq_of_toNat_eq
  rw [toNat_sub8, BitVec.toNat_sub, bit_false]
  omega

theorem sub8Flags_z_iff (a v : Byte) : (sub8Flags a v false).z = true ↔ a = v := by
  rw [sub8Flags, resultFlags_z, decide_eq_true_iff, sub8_no_borrow]
  exact sub_eq_zero

/-- Every form of CMP writes the flags of Sub8 with no borrow in and nothing else (R200). -/
theorem comparesWithA_of_exec {i : Instr} {s : State} {v : Byte} (h : exec i s = .next (s.cmpA v)) :
    ComparesWithA i s v :=
  ⟨s.cmpA v, h, sub8_no_borrow s.a v ▸ flagsOf_resultFlags _ _ _, sub8Flags_z_iff s.a v, sub8Flags_cy_iff s.a v false,
    sub8Flags_ac_iff s.a v false, changesOnly_allFlags s (sub8Flags s.a v false)⟩

/-- Settles O21: the three forms differ only in where the operand comes from. -/
theorem cmpComparesUnsigned : Obligations.CmpComparesUnsigned := by
  intro s
  exact ⟨fun _ => ⟨hasEncoding_encode rfl rfl, comparesWithA_of_exec rfl⟩,
    ⟨hasEncoding_encode rfl rfl, comparesWithA_of_exec rfl⟩,
    fun _ => ⟨hasEncoding_encode rfl rfl, comparesWithA_of_exec rfl⟩⟩

end Sys2Proof.Proofs
end

section
/-!
PROOFS. The stack laws of 43_branch.md and 44_stack.md, and PSW. A Pop16 after a Push16 restores SP and, whatever was pushed,
leaves everything else to the two Bytes below SP; each law says that the instruction pair is no more than that.
-/

namespace Sys2Proof.Proofs

open Sys2Proof Sys2Proof.Machine Sys2Proof.Claims

/-! ## Pop16 after Push16 -/

theorem sp_drop16_push16 (s : State) (w : Word) : (s.push16 w).drop16.sp = s.sp :=
  BitVec.sub_add_cancel s.sp 2

theorem changesOnly_drop16_push16 (s : State) (w : Word) :
    ChangesOnly { mem := [s.sp - 2, s.sp - 1] } s (s.push16 w).drop16 :=
  { changesOnly_trans (changesOnly_push16 s w) (changesOnly_drop16 (s.push16 w)) with
    sp := fun _ => sp_drop16_push16 s w }

/-! ## CALL and RET -/

/-- Settles O26: CALL is a call (R233). -/
theorem callPushesReturnAddress : Obligations.CallPushesReturnAddress :=
  fun _ _ => ⟨hasEncoding_encode rfl rfl, calls_of_exec rfl⟩

/-- A return after a call writes the PC it pops over whatever PC there is, and it pops the PC pushed. -/
theorem returnToCaller_callTo (s : State) (target w : Word) :
    { s.callTo target with pc := w }.returnToCaller = (s.push16 s.pc).drop16 := by
  have popped : { s.callTo target with pc := w }.top16 = s.pc := s.top16_push16 s.pc
  rw [State.returnToCaller, popped]
  rfl

/-- Settles O29: together the two are a Push16 and a Pop16. -/
theorem returnUndoesCall : Obligations.ReturnUndoesCall := by
  intro a16 w s
  exact ⟨s.callTo a16, (s.push16 s.pc).drop16, rfl, congrArg _ (returnToCaller_callTo s a16 w),
    changesOnly_drop16_push16 s s.pc⟩

/-! ## PUSH and POP of one pair -/

theorem setPair_pair (s : State) (rp : RegPair) : s.setPair rp (s.pair rp) = s := by
  cases rp <;> simp [State.setPair, State.pair, State.bc, State.de, State.hl]

theorem pair_drop16_push16 (s : State) (w : Word) (rp : RegPair) : (s.push16 w).drop16.pair rp = s.pair rp := by
  cases rp with
  | sp => exact sp_drop16_push16 s w
  | bc | de | hl => rfl

theorem setPsw_psw (s : State) : s.setPsw s.psw = s := by
  simp [State.setPsw, State.psw]

/-- Settles O33: the Word popped is the Word pushed, and writing a pair or PSW with the value it has changes nothing. -/
theorem popUndoesPush : Obligations.PopUndoesPush := by
  refine ⟨fun rp s _ => ?pair, fun s => ?psw⟩
  case pair =>
    have restored : (s.push16 (s.pair rp)).drop16.setPair rp (s.push16 (s.pair rp)).top16 =
        (s.push16 (s.pair rp)).drop16 := by
      rw [State.top16_push16]
      exact (congrArg _ (pair_drop16_push16 s _ rp).symm).trans (setPair_pair _ rp)
    exact ⟨s.push16 (s.pair rp), (s.push16 (s.pair rp)).drop16, rfl, congrArg _ restored, changesOnly_drop16_push16 s _⟩
  case psw =>
    have restored : (s.push16 s.psw).drop16.setPsw (s.push16 s.psw).top16 = (s.push16 s.psw).drop16 := by
      rw [State.top16_push16]
      exact setPsw_psw (s.push16 s.psw).drop16
    exact ⟨s.push16 s.psw, (s.push16 s.psw).drop16, rfl, congrArg _ restored, changesOnly_drop16_push16 s _⟩

/-! ## PSW -/

/-- A bit of the flags byte that holds a flag is that flag: packing and unpacking keep all five. -/
theorem flags_of_toByte (f : Flags) :
    f.toByte.getLsbD 7 = f.s ∧ f.toByte.getLsbD 6 = f.z ∧ f.toByte.getLsbD 4 = f.ac ∧ f.toByte.getLsbD 2 = f.p ∧
      f.toByte.getLsbD 0 = f.cy := by
  have h := Flags.ofByte_toByte f
  exact ⟨congrArg Flags.s h, congrArg Flags.z h, congrArg Flags.ac h, congrArg Flags.p h, congrArg Flags.cy h⟩

/-- A write of PSW is a write of all five flags and a write of A. -/
theorem changesOnly_setPsw (s : State) (w : Word) :
    ChangesOnly { regs := [.a], flags := allFlags } s (s.setPsw w) :=
  changesOnly_trans (changesOnly_allFlags s (Flags.ofByte (loByte w))) (changesOnly_setReg _ .a (hiByte w))

/-- Settles O31: PUSH PSW is a push of A and the flags byte; POP PSW a pop and then a write of PSW from the two Bytes at SP. -/
theorem pswPacksFlagsByte : Obligations.PswPacksFlagsByte := by
  intro s
  refine ⟨hasEncoding_encode rfl rfl, ⟨s.flags.toByte, pushes_of_exec rfl, ?bits⟩, hasEncoding_encode rfl rfl, ?pop⟩
  case bits =>
    obtain ⟨sign, zero, aux, parity, carry⟩ := flags_of_toByte s.flags
    obtain ⟨bit5, bit3, bit1⟩ := Flags.toByte_fixed s.flags
    exact ⟨sign, zero, bit5, aux, bit3, parity, bit1, carry⟩
  case pop =>
    have low : loByte s.top16 = s.readByte s.sp := loByte_joinBytes _ _
    refine ⟨s.drop16.setPsw s.top16, rfl, hiByte_joinBytes _ _, ?_⟩
    rw [State.setPsw_flags, low]
    exact ⟨rfl, rfl, rfl, rfl, rfl, rfl, changesOnly_trans (changesOnly_drop16 s) (changesOnly_setPsw _ s.top16)⟩

end Sys2Proof.Proofs
end

section
/-! PROOFS. The statements of 45_io_control.md about IN, OUT and EI. -/

namespace Sys2Proof.Proofs

open Sys2Proof Sys2Proof.Machine

theorem changesOnly_recordIo (s : State) (e : IoEvent) : ChangesOnly { io := true } s (s.recordIo e) where
  regs r _ := by cases r <;> rfl
  flags _ _ := rfl
  mem _ _ := rfl
  pc _ := rfl
  sp _ := rfl
  inte _ := rfl
  halted _ := rfl
  pending _ := rfl
  io := nofun
  params := rfl

/-- Settles O34: IN is a write of A and one event, OUT one event. -/
theorem inOutPerformOneTransaction : Obligations.InOutPerformOneTransaction := by
  intro port s
  refine ⟨hasEncoding_encode rfl rfl, ?input, hasEncoding_encode rfl rfl, ?output⟩
  case input =>
    exact ⟨(s.setReg .a (s.ioAnswer port)).recordIo (.input port (s.ioAnswer port)), rfl, rfl, rfl,
      changesOnly_trans (changesOnly_setReg s .a _) (changesOnly_recordIo _ _)⟩
  case output => exact ⟨s.recordIo (.output port s.a), rfl, rfl, changesOnly_recordIo s _⟩

/-- Settles O36: with INTE 1 the acceptance test (R304) lets in whatever is pending. -/
theorem eiTakesEffectAtOnce : Obligations.EiTakesEffectAtOnce := by
  intro s
  exact ⟨hasEncoding_encode rfl rfl, { s with inte := true }, rfl, rfl, rfl,
    changesOnly_controlBits s nofun fun _ => rfl⟩

end Sys2Proof.Proofs
end

section
/-!
PROOFS. The statements of 60_exceptions.md: the fault, interrupts and the halt machine. What a step comes to is decided by the
Byte it is about to execute, so what that opcode Byte says of the instruction comes first and then the outcome of every step.
-/

namespace Sys2Proof.Proofs

open Sys2Proof Sys2Proof.Machine Sys2Proof.Claims

/-! ## What the opcode Byte says of the instruction -/

/-- A well-formed instruction is what its opcode Byte decodes to, with its own operand Bytes. -/
theorem exists_decodeBytes_encodeOpcode {i : Instr} (hw : i.wellFormed = true) :
    ∃ b1 b2, decodeBytes (encodeOpcode i) b1 b2 = i := by
  obtain ⟨hd, -⟩ | ⟨k, d8, hd, rfl, -⟩ | ⟨k, d16, hd, rfl, -⟩ := decodeOpcode_encodeOpcode_cases hw
  · exact ⟨0, 0, decodeBytes_of_one hd 0 0⟩
  · exact ⟨d8, 0, decodeBytes_of_imm hd d8 0⟩
  · exact ⟨loByte d16, hiByte d16, (decodeBytes_of_addr hd _ _).trans (congrArg k (joinBytes_hiByte_loByte d16))⟩

/-- A fact about an instruction and its opcode Byte holds of every well-formed one if it holds of each of the 256 values. -/
theorem wellFormed_forall (P : Byte → Instr → Bool)
    (table : ∀ b1 b2, ((List.range 256).all fun n =>
      P (BitVec.ofNat 8 n) ((decodeOpcode (BitVec.ofNat 8 n)).instr b1 b2)) = true)
    {i : Instr} (hw : i.wellFormed = true) : P (encodeOpcode i) i = true := by
  obtain ⟨b1, b2, h⟩ := exists_decodeBytes_encodeOpcode hw
  have row := decodeOpcode_forall (fun b form => P b (form.instr b1 b2)) (table b1 b2) (encodeOpcode i)
  rwa [← decodeBytes_eq, h] at row

set_option maxRecDepth 10000 in
/-- Of the instructions only EI and DI write INTE (R282, R283), by their opcodes. -/
theorem inteWritten_of_opcode {i : Instr} (hw : i.wellFormed = true) :
    inteWritten i = if encodeOpcode i = 0xFB then some true else if encodeOpcode i = 0xF3 then some false else none :=
  eq_of_beq <| wellFormed_forall (fun b i => inteWritten i ==
    if b = 0xFB then some true else if b = 0xF3 then some false else none) (fun _ _ => rfl) hw

set_option maxRecDepth 10000 in
/-- Of the instructions only IN and OUT make a transaction (R280, R281), by their opcodes, and each makes one. -/
theorem length_ioDone_of_opcode {i : Instr} (hw : i.wellFormed = true) (before after : Byte) :
    (ioDone before after i).length = if encodeOpcode i = 0xDB ∨ encodeOpcode i = 0xD3 then 1 else 0 :=
  eq_of_beq <| wellFormed_forall (fun b i => (ioDone before after i).length == if b = 0xDB ∨ b = 0xD3 then 1 else 0)
    (fun _ _ => rfl) hw

set_option maxRecDepth 10000 in
/-- HLT is the instruction of the opcode 0x76 (R284). -/
theorem eq_hlt_iff_opcode {i : Instr} (hw : i.wellFormed = true) : i = .hlt ↔ encodeOpcode i = 0x76 :=
  decide_eq_decide.mp <| eq_of_beq <|
    wellFormed_forall (fun b i => decide (i = .hlt) == decide (b = 0x76)) (fun _ _ => rfl) hw

/-! ## Injected Bytes -/

theorem decode_singleton_ok_iff {v : Byte} {i : Instr} : decode [v] = .ok (i, []) ↔ injectedInstr v = some i := by
  rw [injectedInstr_eq_some]
  cases h : decodeOpcode v <;> simp [decode, h]

theorem decode_singleton_truncated_iff {v : Byte} : decode [v] = .error (.truncated v) ↔ injectedInstr v = none := by
  cases h : decodeOpcode v <;> simp [decode, injectedInstr, h]

theorem unimplemented_of_injected {v : Byte} {i : Instr} (h : injectedInstr v = some i) :
    i.unimplemented = if v ∈ unimplementedOpcodes then some v else none := by
  rw [← decodeBytes_of_one (injectedInstr_eq_some.mp h) 0 0]
  exact decodeBytes_unimplemented v 0 0

theorem acceptInterrupt_of_multiByte {v : Byte} (h : injectedInstr v = none) (s : State) :
    acceptInterrupt v s = .refused (.injectedMultiByte v) := by
  simp only [acceptInterrupt, h]

theorem nextOpcode_of_accept {s : State} {v : Byte} (ha : s.acceptable = some v) : nextOpcode s = some v := by
  simp only [nextOpcode, ha]

theorem nextOpcode_of_running {s : State} (ha : s.acceptable = none) (hh : s.halted = false) :
    nextOpcode s = some (s.readByte s.pc) := by
  simp [nextOpcode, ha, hh]

theorem nextOpcode_of_held {s : State} (ha : s.acceptable = none) (hh : s.halted = true) : nextOpcode s = none := by
  simp [nextOpcode, ha, hh]

/-! ## The outcome of a step -/

/-- A Running core whose Byte at PC is one of the twelve faults, PC not advanced (R104, R300). -/
theorem step_of_unimplemented_at_pc {s : State} (ha : s.acceptable = none) (hh : s.halted = false)
    (hv : s.readByte s.pc ∈ unimplementedOpcodes) :
    step s = .fault (.unimplementedOpcode (s.readByte s.pc) s.pc) := by
  have hi : s.fetch.unimplemented = some (s.readByte s.pc) := decodeBytes_unimplemented_of_mem hv _ _
  rw [step_of_running ha hh, exec_of_unimplemented hi, State.advancePc_pc, fetchAdvance_of_unimplemented hi,
    BitVec.add_zero]

/-- A step whose next opcode is one of the twelve faults, fetched or injected (R300, R305). -/
theorem step_of_unimplemented {s : State} {v : Byte} (hn : nextOpcode s = some v) (hv : v ∈ unimplementedOpcodes) :
    step s = .fault (.unimplementedOpcode v s.pc) := by
  cases ha : s.acceptable with
  | some w =>
    obtain rfl : w = v := Option.some.inj ((nextOpcode_of_accept ha).symm.trans hn)
    obtain ⟨i, hd, hi⟩ := decodeOpcode_of_mem_unimplementedOpcodes hv
    rw [step_of_accept ha, acceptInterrupt_of_unimplemented hd hi]
  | none =>
    cases hh : s.halted with
    | true => rw [nextOpcode_of_held ha hh] at hn; cases hn
    | false =>
      obtain rfl : s.readByte s.pc = v := Option.some.inj ((nextOpcode_of_running ha hh).symm.trans hn)
      exact step_of_unimplemented_at_pc ha hh hv

/-- A step faults on one of the twelve values, is refused on an injected Byte that needs operand Bytes, and else gives a next
state (R300, R307, R308). -/
theorem step_outcome_cases (s : State) :
    (∃ v, nextOpcode s = some v ∧ v ∈ unimplementedOpcodes ∧ step s = .fault (.unimplementedOpcode v s.pc)) ∨
      (∃ v, s.acceptable = some v ∧ injectedInstr v = none ∧ step s = .refused (.injectedMultiByte v)) ∨
      ∃ t, step s = .next t := by
  cases ha : s.acceptable with
  | some v =>
    cases hi : injectedInstr v with
    | none => exact .inr (.inl ⟨v, rfl, hi, (step_of_accept ha).trans (acceptInterrupt_of_multiByte hi s)⟩)
    | some i =>
      by_cases hv : v ∈ unimplementedOpcodes
      · have hn := nextOpcode_of_accept ha
        exact .inl ⟨v, hn, hv, step_of_unimplemented hn hv⟩
      · have implemented : i.unimplemented = none := (unimplemented_of_injected hi).trans (if_neg hv)
        rw [step_of_accept ha, acceptInterrupt_of_one (injectedInstr_eq_some.mp hi) implemented]
        exact .inr (.inr (exec_of_implemented implemented _))
  | none =>
    cases hh : s.halted with
    | true => exact .inr (.inr ⟨s, step_of_held ha hh⟩)
    | false =>
      by_cases hv : s.readByte s.pc ∈ unimplementedOpcodes
      · exact .inl ⟨_, nextOpcode_of_running ha hh, hv, step_of_unimplemented_at_pc ha hh hv⟩
      · rw [step_of_running ha hh]
        exact .inr (.inr (exec_of_implemented (decodeBytes_implemented_of_notMem hv _ _) _))

/-! ## The fault -/

/-- Settles O37: the twelve rows one by one, and then the step that fetches one of them. -/
theorem unimplementedOpcodeFaults : Obligations.UnimplementedOpcodeFaults := by
  refine ⟨fun p hp s => ?rows, fun s => step_of_unimplemented_at_pc⟩
  case rows => fin_cases hp <;> exact ⟨rfl, rfl, rfl, fun _ => rfl⟩

/-- Settles O38: of the outcomes of a step only the first is a fault. -/
theorem onlyUnimplementedOpcodesFault : Obligations.OnlyUnimplementedOpcodesFault := by
  intro s opcode pc
  constructor
  · intro h
    obtain ⟨v, hn, hv, e⟩ | ⟨v, -, -, e⟩ | ⟨t, e⟩ := step_outcome_cases s
    all_goals cases e.symm.trans h
    exact ⟨hn, hv, rfl⟩
  · rintro ⟨hn, hv, rfl⟩
    exact step_of_unimplemented hn hv

/-! ## Interrupts -/

/-- Settles O39: of the outcomes of a step only the second is a refusal. -/
theorem onlyInjectedMultiByteRefused : Obligations.OnlyInjectedMultiByteRefused := by
  intro s r
  constructor
  · intro h
    obtain ⟨v, -, -, e⟩ | ⟨v, ha, hi, e⟩ | ⟨t, e⟩ := step_outcome_cases s
    all_goals cases e.symm.trans h
    obtain ⟨enabled, pending⟩ := acceptable_eq_some.mp ha
    exact ⟨v, enabled, pending, decode_singleton_truncated_iff.mpr hi, rfl⟩
  · rintro ⟨v, enabled, pending, truncated, rfl⟩
    rw [step_of_accept (acceptable_eq_some.mpr ⟨enabled, pending⟩)]
    exact acceptInterrupt_of_multiByte (decode_singleton_truncated_iff.mp truncated) s

/-- Accepting a whole implemented instruction executes it on the acknowledged state (R305). -/
theorem step_of_accept_one {s : State} {v : Byte} {i : Instr} (enabled : s.inte = true) (pending : s.pending = some v)
    (one : decode [v] = .ok (i, [])) (implemented : i.unimplemented = none) : step s = exec i s.acknowledge := by
  rw [step_of_accept (acceptable_eq_some.mpr ⟨enabled, pending⟩)]
  exact acceptInterrupt_of_one (injectedInstr_eq_some.mp (decode_singleton_ok_iff.mp one)) implemented

/-- Settles O40: with INTE 1, what the acknowledgement leaves of INTE is the parameter's word. -/
theorem acceptanceExecutesInjectedInstruction : Obligations.AcceptanceExecutesInjectedInstruction := by
  intro s v i enabled pending one hv
  have implemented : i.unimplemented = none :=
    (unimplemented_of_injected (decode_singleton_ok_iff.mp one)).trans (if_neg hv)
  rw [step_of_accept_one enabled pending one implemented, State.acknowledge, enabled, Bool.true_and]

theorem changesOnly_acknowledge (s : State) :
    ChangesOnly { pending := true, halted := true, inte := true } s s.acknowledge where
  regs r _ := by cases r <;> rfl
  flags _ _ := rfl
  mem _ _ := rfl
  pc _ := rfl
  sp _ := rfl
  inte := nofun
  halted := nofun
  pending := nofun
  io _ := rfl
  params := rfl

theorem toNat_restartTarget (n : BitVec 3) : (restartTarget n).toNat = 8 * n.toNat := by
  have := n.isLt
  rw [restartTarget, BitVec.toNat_ofNat]
  omega

/-- Settles O41: RST n is a call from the acknowledged state, whose PC, SP and memory are those of the interrupted one. -/
theorem interruptRestartSavesPc : Obligations.InterruptRestartSavesPc := by
  intro s n enabled pending
  have h := step_of_accept_one enabled pending (decode_encode_append (i := .rst n) rfl []) rfl
  obtain ⟨t, ht, target, sp, low, high, frame⟩ :=
    calls_of_exec (i := .rst n) (s := s.acknowledge) (target := restartTarget n) rfl
  refine ⟨t, h.trans ht, target ▸ toNat_restartTarget n, sp, low, high, frame.pending rfl, frame.halted rfl, ?inte,
    changesOnly_trans (changesOnly_acknowledge s) frame⟩
  case inte => rw [frame.inte rfl, State.acknowledge_inte, enabled, Bool.true_and]

/-! ## What every step keeps -/

/-- Settles O42, by induction on the number of steps: each holds (R309). -/
theorem heldForEver : Obligations.HeldForEver := by
  intro n s halted noRequest
  have held : step s = .next s := step_of_held (acceptable_eq_none.mpr noRequest.symm) halted
  induction n with
  | zero => rfl
  | succ n ih =>
    rw [List.replicate_succ, runEvents, applyEvent, held]
    exact ih

/-- Settles O43: an instruction sets HALTED exactly when it is HLT, and the acknowledgement clears it before one runs. -/
theorem haltMachineTransitions : Obligations.HaltMachineTransitions := by
  intro s t h
  obtain ⟨-, -, halted, rfl⟩ | ⟨i, hn, hw, -, running, e⟩ | ⟨i, hn, hw, ha, -, e⟩ := step_cases_opcode h
  · simp [halted]
  · have after := exec_halted e
    rw [State.advancePc_halted, running, Bool.or_false] at after
    simp [hn, running, after, eq_hlt_iff_opcode hw]
  · have after := exec_halted e
    rw [State.acknowledge_halted, Bool.or_false] at after
    obtain ⟨enabled, pending⟩ := acceptable_eq_some.mp ha
    simp [hn, enabled, pending, after, eq_hlt_iff_opcode hw]

/-- What an instruction leaves in INTE, by its opcode Byte. -/
theorem exec_inte_of_opcode {i : Instr} {s t : State} (hw : i.wellFormed = true) (h : exec i s = .next t) :
    t.inte = if encodeOpcode i = 0xFB then true else if encodeOpcode i = 0xF3 then false else s.inte := by
  rw [exec_inte h, inteWritten_of_opcode hw]
  split
  · rfl
  · split <;> rfl

/-- Settles O44: an instruction keeps PENDING and writes INTE by its opcode, over what the acknowledgement left of the two. -/
theorem inteAndPendingWriters : Obligations.InteAndPendingWriters := by
  intro s t h
  obtain ⟨hn, noRequest, -, rfl⟩ | ⟨i, hn, hw, noRequest, -, e⟩ | ⟨i, hn, hw, ha, -, e⟩ := step_cases_opcode h
  · simp [hn, noRequest]
  · simp [hn, noRequest, exec_keeps_pending e, exec_inte_of_opcode hw e]
  · simp [hn, ha, exec_keeps_pending e, exec_inte_of_opcode hw e]

/-- What an instruction adds to the I/O history, by its opcode Byte. -/
theorem exec_io_of_opcode {i : Instr} {s t : State} (hw : i.wellFormed = true) (h : exec i s = .next t) :
    if encodeOpcode i = 0xDB ∨ encodeOpcode i = 0xD3 then ∃ e, t.io = s.io ++ [e] else t.io = s.io := by
  have events := length_ioDone_of_opcode hw s.a t.a
  by_cases port : encodeOpcode i = 0xDB ∨ encodeOpcode i = 0xD3
  · rw [if_pos port] at events ⊢
    obtain ⟨e, he⟩ := List.length_eq_one_iff.mp events
    exact ⟨e, he ▸ exec_io h⟩
  · rw [if_neg port] at events ⊢
    rw [exec_io h, List.length_eq_zero_iff.mp events, List.append_nil]

/-- Settles O45: neither the fetch nor the acknowledgement touches the history. -/
theorem onlyInOutReachPorts : Obligations.OnlyInOutReachPorts := by
  intro s t h
  obtain ⟨hn, -, -, rfl⟩ | ⟨i, hn, hw, -, -, e⟩ | ⟨i, hn, hw, -, -, e⟩ := step_cases_opcode h
  · simp [hn]
  · simpa [hn] using exec_io_of_opcode hw e
  · simpa [hn] using exec_io_of_opcode hw e

end Sys2Proof.Proofs
end

section
/-! PROOFS. The statement about the informative cycle table of 70_reset_and_hazards.md section 4. -/

namespace Sys2Proof.Proofs

open Sys2Proof Sys2Proof.Machine

/-- The table of R350 has a count for every implemented instruction, from 4 to 18. -/
theorem cycles_range {i : Instr} (hi : i.unimplemented = none) (taken : Bool) :
    ∃ n, cycles i taken = some n ∧ 4 ≤ n ∧ n ≤ 18 := by
  cases i
  case ccc | rcc => cases taken <;> exact ⟨_, rfl, by decide, by decide⟩
  case unimpl08 | unimpl10 | unimpl18 | unimpl20 | unimpl28 | unimpl30 | unimpl38 | unimplCB | unimplD9 | unimplDD |
    unimplED | unimplFD => cases hi
  all_goals exact ⟨_, rfl, by decide, by decide⟩

/-- Settles O60: of the rows of the table only those of Ccc and Rcc look at whether the condition held. -/
theorem cycleCountDependsOnTaken : Obligations.CycleCountDependsOnTaken := by
  intro i hi
  refine ⟨cycles_range hi, ?_⟩
  cases i
  case ccc cc a16 => exact iff_of_true (by simp [cycles]) (.inl ⟨cc, a16, rfl⟩)
  case rcc cc => exact iff_of_true (by simp [cycles]) (.inr ⟨cc, rfl⟩)
  all_goals exact iff_of_false (not_not_intro rfl) (by simp)

end Sys2Proof.Proofs
end
